-- ==== Sys2Proof/Word.lean ====
section
/-! DEFINITION. The widths of spec/00_scope.md R12: bytes, 16-bit words, 32-bit values. An `i32` and a
`u32` are both held as the 32-bit pattern (`bits32`, R12); which of the two a value is, its operation says. -/

namespace Sys2Proof

/-- `u8` of R12: one byte of a stream or a buffer. -/
abbrev Byte := BitVec 8

/-- `u16` of R12: a header word, a codeword, a CRC register. -/
abbrev Word16 := BitVec 16

/-- The pattern of an `i32` or a `u32` of R12. -/
abbrev Word32 := BitVec 32

end Sys2Proof
end

