-- ==== Sys2Proof/Config.lean ====
section
/-! DEFINITION. The constants of spec/00_scope.md R9 (hardwired, plain constants here) and the named
parameters of R10, a record that `Machine.State` holds and no operation changes. -/

namespace Sys2Proof

/-- `SYNC_MARKER` (R9, R91). -/
def Config.syncMarker : Word16 := 0xECA0#16

/-- `FILLER` (R9, decision D4). -/
def Config.filler : Byte := 0xA5#8

/-- `HEADER_LEN` (R9): header bytes of a frame. -/
def Config.headerLen : Nat := 6

/-- `CRC_POLY` (R9, R140). -/
def Config.crcPoly : Word16 := 0x1021#16

/-- `CRC_INIT` (R9, R140). -/
def Config.crcInit : Word16 := 0xFFFF#16

/-- `CRC_MSB_FIRST` (R9, R140): the bits of each byte enter the CRC most significant first. -/
def Config.crcMsbFirst : Bool := true

/-- `CRC_LEN` (R9): bytes of the trailing CRC. -/
def Config.crcLen : Nat := 2

/-- `SEQ_MOD` (R9, R98): the modulus of the sequence count. -/
def Config.seqMod : Nat := 16384

/-- `TERMINAL_FLAGS` (R9, R97): the `group_flags` value that ends a logical packet. -/
def Config.terminalFlags : BitVec 2 := 3#2

/-- `RUN_MAX` (R9, R248): the largest run of codec (c). -/
def Config.runMax : Nat := 255

/-- `VALUE_WIDTH` (R9): the bits of every value the codecs take. -/
def Config.valueWidth : Nat := 32

/-- The byte order of codewords of codecs (a) and (b) in a buffer (R69). -/
inductive WordOrder where
  | little
  | big
deriving DecidableEq, Repr

/-- The parameters of R10 that an assembly of the hardware fixes, and whether its `SYNC` and `COL` are
coupled (R75, R127). -/
structure Config where
  /-- `CRC_XOROUT` (D10). -/
  crcXorout : Word16
  /-- `FILLER_ENTERS_WINDOW` (D5). -/
  fillerEntersWindow : Bool
  /-- `GARBAGE_WIDTH` (D8, U10): the width at which `seek_count` and `garbage_count` saturate (R24, R25). -/
  garbageWidth : Nat
  /-- `MAX_PAYLOAD` (D41): the largest payload (R307, log entry 21). -/
  maxPayload : Nat
  /-- `ACC_MAX` (D18), `none` for unbounded. -/
  accMax : Option Nat
  /-- `N_MAX` (D39), `none` for unbounded. -/
  nMax : Option Nat
  /-- `SLZ_COLLAPSE_BEFORE_COMPARE` (D25, R249). -/
  slzCollapseBeforeCompare : Bool
  /-- `BUF_WORD_ORDER` (D31, R69). -/
  bufWordOrder : WordOrder
  /-- Whether the coupling of R75 is active (R127). -/
  coupled : Bool
deriving DecidableEq, Repr

/-- The defaults R10 shows; the coupling is active, as in the assembled hardware of R75 (DESIGN CHOICE,
log entry 6; unsafe for a user who drives `COL` alone with frames of `SYNC`). -/
def Config.default : Config where
  crcXorout := 0x0000#16
  fillerEntersWindow := false
  garbageWidth := 32
  maxPayload := 65536
  accMax := none
  nMax := none
  slzCollapseBeforeCompare := true
  bufWordOrder := .little
  coupled := true

end Sys2Proof
end

