-- ==== Sys2Proof/Syntax.lean ====
section
/-! DEFINITION. The instruction syntax: one constructor per row of spec/opcode_table.json, the 19 operations
of spec/30_encoding.md R120 and the ten data-format rows, with the operands and fields the spec gives. -/

namespace Sys2Proof

/-- A RawFrame (spec/10_state.md R30): what `SYNC` emits for a complete frame and `COL.PUSH` takes. -/
structure RawFrame where
  version : BitVec 3
  /-- the source's packet_type -/
  ptype : BitVec 1
  /-- the source's secondary_header_flag -/
  secHdr : BitVec 1
  appid : BitVec 11
  gflags : BitVec 2
  seq : BitVec 14
  /-- declared length: one less than the number of payload bytes (R107) -/
  dlen : BitVec 16
  /-- payload bytes in wire order, not swapped -/
  payload : List Byte
  /-- the trailing CRC as received -/
  crcRx : Word16
  crcValid : Bool
deriving DecidableEq, Repr

/-- One constructor per row of spec/opcode_table.json. -/
inductive Instr where
  /-- `SYNC.PUSH b` (R150) -/
  | syncPush (b : Byte)
  /-- `SYNC.END` (R160) -/
  | syncEnd
  /-- `COL.PUSH f` (R180) -/
  | colPush (f : RawFrame)
  /-- `COL.END` (R188) -/
  | colEnd
  /-- `ENC10P6 v` (R201) -/
  | enc10p6 (v : Word32)
  /-- `DEC10P6 c` (R204) -/
  | dec10p6 (c : Word16)
  /-- `ENC4TO5 v0, v1, v2, v3` (R221) -/
  | enc4to5 (v0 v1 v2 v3 : Word32)
  /-- `DEC4TO5 w0, w1, w2, w3, w4` (R224) -/
  | dec4to5 (w0 w1 w2 w3 w4 : Word16)
  /-- `ENCSLZ.U A` (R243) -/
  | encSlzU (a : List Word32)
  /-- `ENCSLZ.S A` (R244) -/
  | encSlzS (a : List Word32)
  /-- `DECSLZ.U B, N` (R250) -/
  | decSlzU (buf : List Byte) (n : Nat)
  /-- `DECSLZ.S B, N` (R251) -/
  | decSlzS (buf : List Byte) (n : Nat)
  /-- `ENC10P6.BUF A` (R208) -/
  | enc10p6Buf (a : List Word32)
  /-- `DEC10P6.BUF B, N` (R209) -/
  | dec10p6Buf (buf : List Byte) (n : Nat)
  /-- `ENC4TO5.BUF A` (R226) -/
  | enc4to5Buf (a : List Word32)
  /-- `DEC4TO5.BUF B, N` (R227) -/
  | dec4to5Buf (buf : List Byte) (n : Nat)
  /-- `CRC16 B` (R142) -/
  | crc16 (buf : List Byte)
  /-- `CRC16.STEP c, b` (R141) -/
  | crc16Step (c : Word16) (b : Byte)
  /-- `RESET` (R340) -/
  | reset
  /-- data format `FRAME.MARKER` (R91): no field -/
  | frameMarker
  /-- data format `FRAME.W0` (R92) -/
  | frameW0 (version : BitVec 3) (ptype secHdr : BitVec 1) (appid : BitVec 11)
  /-- data format `FRAME.W1` (R93) -/
  | frameW1 (gflags : BitVec 2) (seq : BitVec 14)
  /-- data format `FRAME.W2` (R94) -/
  | frameW2 (dlen : BitVec 16)
  /-- data format `CODE10P6` (R100) -/
  | code10p6 (mant : BitVec 10) (sign : BitVec 1) (lz : BitVec 5)
  /-- data format `CODE4TO5.W0` (R102) -/
  | code4to5W0 (nib0 nib1 nib2 nib3 : BitVec 4)
  /-- data format `CODE4TO5.WI` (R103) -/
  | code4to5Wi (sign inplace : BitVec 1) (mant : BitVec 14)
  /-- data format `SLZ.HDR.U` (R105) -/
  | slzHdrU (shift : BitVec 8) (len : BitVec 8)
  /-- data format `SLZ.HDR.S` (R105) -/
  | slzHdrS (sign : BitVec 1) (shift : BitVec 7) (len : BitVec 8)
  /-- data format `SLZ.WORD` (R105) -/
  | slzWord (w : BitVec 16)
deriving DecidableEq, Repr

/-- The 19 operations of R120, by name: what a command byte selects. -/
inductive Opcode where
  | syncPush
  | syncEnd
  | colPush
  | colEnd
  | enc10p6
  | dec10p6
  | enc4to5
  | dec4to5
  | encSlzU
  | encSlzS
  | decSlzU
  | decSlzS
  | enc10p6Buf
  | dec10p6Buf
  | enc4to5Buf
  | dec4to5Buf
  | crc16
  | crc16Step
  | reset
deriving DecidableEq, Repr

/-- The ten data-format rows of spec/opcode_table.json, by name: the layout a 16-bit word is read in. -/
inductive DataFormat where
  | frameMarker
  | frameW0
  | frameW1
  | frameW2
  | code10p6
  | code4to5W0
  | code4to5Wi
  | slzHdrU
  | slzHdrS
  | slzWord
deriving DecidableEq, Repr

end Sys2Proof
end

