-- ==== Sys2Proof/WellFormed.lean ====
section
/-! DEFINITION. Which instruction terms are commands: an operation (not a data-format row) whose operand
block `CMD8` can hold (spec/30_encoding.md R121, R122). -/

namespace Sys2Proof

/-- R122 stores counts and lengths in 4 bytes. -/
def fitsCount (n : Nat) : Bool := decide (n < 2 ^ 32)

/-- R30, R180: a RawFrame holds exactly `dlen + 1` payload bytes. -/
def RawFrame.sized (f : RawFrame) : Bool := f.payload.length == f.dlen.toNat + 1

/-- A well-formed instruction: an operation of R120 whose operands the operand blocks of R122 can hold.
The data-format rows of the table are no operations (R120). -/
def Instr.wellFormed : Instr → Bool
  | .syncPush _ => true
  | .syncEnd => true
  | .colPush f => f.sized
  | .colEnd => true
  | .enc10p6 _ => true
  | .dec10p6 _ => true
  | .enc4to5 _ _ _ _ => true
  | .dec4to5 _ _ _ _ _ => true
  | .encSlzU a => fitsCount a.length
  | .encSlzS a => fitsCount a.length
  | .decSlzU buf n => fitsCount buf.length && fitsCount n
  | .decSlzS buf n => fitsCount buf.length && fitsCount n
  | .enc10p6Buf a => fitsCount a.length
  | .dec10p6Buf buf n => fitsCount buf.length && fitsCount n
  | .enc4to5Buf a => fitsCount a.length
  | .dec4to5Buf buf n => fitsCount buf.length && fitsCount n
  | .crc16 buf => fitsCount buf.length
  | .crc16Step _ _ => true
  | .reset => true
  | .frameMarker => false
  | .frameW0 _ _ _ _ => false
  | .frameW1 _ _ => false
  | .frameW2 _ => false
  | .code10p6 _ _ _ => false
  | .code4to5W0 _ _ _ _ => false
  | .code4to5Wi _ _ _ => false
  | .slzHdrU _ _ => false
  | .slzHdrS _ _ _ => false
  | .slzWord _ => false

end Sys2Proof
end

