-- ==== Sys2Proof/Machine/Operands.lean ====
section
/-! DEFINITION. Operand forms and the notation of spec/00_scope.md R11 to R15: byte orders, magnitude and
leading-zero count, the 16-bit payload swap, and the bit layouts of the header words and codewords
(spec/30_encoding.md R92 to R94, R100 to R105). -/

namespace Sys2Proof.Machine

/-! ### Byte orders (R15) -/

/-- `u16be(b0, b1)` (R15). -/
def u16be (b0 b1 : Byte) : Word16 := (b0.setWidth 16 <<< 8) ||| b1.setWidth 16

/-- `u16le(b0, b1)` (R15). -/
def u16le (b0 b1 : Byte) : Word16 := u16be b1 b0

/-- `be16(w)` (R15). -/
def be16 (w : Word16) : List Byte := [w.extractLsb' 8 8, w.extractLsb' 0 8]

/-- `le16(w)` (R15). -/
def le16 (w : Word16) : List Byte := [w.extractLsb' 0 8, w.extractLsb' 8 8]

/-- `u32le(b0, b1, b2, b3)` (R15). -/
def u32le (b0 b1 b2 b3 : Byte) : Word32 :=
  b0.setWidth 32 ||| (b1.setWidth 32 <<< 8) ||| (b2.setWidth 32 <<< 16) ||| (b3.setWidth 32 <<< 24)

/-- The four bytes of a 32-bit scalar in an operand block, little-endian (R122). -/
def le32 (v : Word32) : List Byte :=
  [v.extractLsb' 0 8, v.extractLsb' 8 8, v.extractLsb' 16 8, v.extractLsb' 24 8]

/-- One codeword of codec (a) or (b) as it stands in a buffer (R69, `BUF_WORD_ORDER`). -/
def bufWord (order : WordOrder) (w : Word16) : List Byte :=
  match order with
  | .little => le16 w
  | .big => be16 w

/-- The codeword held by two consecutive buffer bytes (R69, `BUF_WORD_ORDER`). -/
def readBufWord (order : WordOrder) (b0 b1 : Byte) : Word16 :=
  match order with
  | .little => u16le b0 b1
  | .big => u16be b0 b1

/-- `swap16` (spec/20_memory.md R66, R67): each pair of bytes exchanged, an odd last byte copied. -/
def swap16 : List Byte → List Byte
  | b0 :: b1 :: rest => b1 :: b0 :: swap16 rest
  | rest => rest

/-! ### Values (R12 to R14) -/

/-- `sgn(v)` (R13): whether an `i32` is negative. -/
def sgn (v : Word32) : Bool := v.msb

/-- `abs32(v)` (R13): the unsigned magnitude of an `i32`, `2^31` for the most negative value (D20). -/
def abs32 (v : Word32) : Word32 := if v.msb then -v else v

/-- `neg32(a)` (R13). -/
def neg32 (a : Word32) : Word32 := -a

/-- `sig(a)` (R14): the number of significant bits. -/
def sig (a : Word32) : Nat := if a = 0#32 then 0 else a.toNat.log2 + 1

/-- `clz32(a)` (R14): the leading-zero count, `VALUE_WIDTH` for 0. -/
def clz32 (a : Word32) : Nat := Config.valueWidth - sig a

/-- `shl32(a, n)` (R13): 0 for `n >= 32`. -/
def shl32 (a : Word32) (n : Nat) : Word32 := a <<< n

/-- A sign as one bit of a codeword. -/
def signBit (neg : Bool) : BitVec 1 := BitVec.ofBool neg

/-! ### The three header words (R92 to R94) -/

/-- Header word 0, pattern `vvvt saaa aaaa aaaa` (R92). -/
def packW0 (version : BitVec 3) (ptype secHdr : BitVec 1) (appid : BitVec 11) : Word16 :=
  (version.setWidth 16 <<< 13) ||| (ptype.setWidth 16 <<< 12) ||| (secHdr.setWidth 16 <<< 11) ||| appid.setWidth 16

/-- Header word 1, pattern `ggss ssss ssss ssss` (R93). -/
def packW1 (gflags : BitVec 2) (seq : BitVec 14) : Word16 := (gflags.setWidth 16 <<< 14) ||| seq.setWidth 16

/-- Bits 15:13 of header word 0 (R92, R95). -/
def w0Version (w : Word16) : BitVec 3 := w.extractLsb' 13 3

/-- Bit 12 of header word 0 (R92, R95). -/
def w0Ptype (w : Word16) : BitVec 1 := w.extractLsb' 12 1

/-- Bit 11 of header word 0 (R92, R95). -/
def w0SecHdr (w : Word16) : BitVec 1 := w.extractLsb' 11 1

/-- Bits 10:0 of header word 0 (R92, R95). -/
def w0Appid (w : Word16) : BitVec 11 := w.extractLsb' 0 11

/-- Bits 15:14 of header word 1 (R93, R95). -/
def w1Gflags (w : Word16) : BitVec 2 := w.extractLsb' 14 2

/-- Bits 13:0 of header word 1 (R93, R95). -/
def w1Seq (w : Word16) : BitVec 14 := w.extractLsb' 0 14

/-- The six header bytes of a frame as on the wire (R90, R64). -/
def headerBytes (f : RawFrame) : List Byte :=
  be16 (packW0 f.version f.ptype f.secHdr f.appid) ++ be16 (packW1 f.gflags f.seq) ++ be16 f.dlen

/-! ### Codewords (R100 to R105) -/

/-- Codec (a) code, pattern `mmmm mmmm mmsl llll` (R100). -/
def pack10p6 (mant : BitVec 10) (sign : BitVec 1) (lz : BitVec 5) : Word16 :=
  (mant.setWidth 16 <<< 6) ||| (sign.setWidth 16 <<< 5) ||| lz.setWidth 16

/-- Codec (b) word 0, pattern `dddd cccc bbbb aaaa` (R102). -/
def packNibbles (nib0 nib1 nib2 nib3 : BitVec 4) : Word16 :=
  nib0.setWidth 16 ||| (nib1.setWidth 16 <<< 4) ||| (nib2.setWidth 16 <<< 8) ||| (nib3.setWidth 16 <<< 12)

/-- The nibble of value `i` in codec (b) word 0 (R102, R224). -/
def nibble (w0 : Word16) (i : Nat) : BitVec 4 := w0.extractLsb' (4 * i) 4

/-- Codec (b) word `i + 1`, pattern `sfmm mmmm mmmm mmmm` (R103). -/
def pack4to5 (sign inplace : BitVec 1) (mant : BitVec 14) : Word16 :=
  mant.setWidth 16 ||| (inplace.setWidth 16 <<< 14) ||| (sign.setWidth 16 <<< 15)

/-- The two header bytes of a run of codec (c), shift byte high (R105, RUNHDR16 of the table). -/
def packRunHdr (shiftByte len : Byte) : Word16 := u16be shiftByte len

/-- The shift byte of a run: the sign in bit 7, the shift in bits 6:0 (R105). -/
def shiftByte (sign : BitVec 1) (shift : BitVec 7) : Byte := shift.setWidth 8 ||| (sign.setWidth 8 <<< 7)

end Sys2Proof.Machine
end

