-- ==== Sys2Proof/Machine/Crc.lean ====
section
/-! DEFINITION. The CRC-16 of spec/40_crc16.md as functions (R140 to R144), and `wire_frame`, the inverse of the
synchronizer (spec/30_encoding.md R99). -/

namespace Sys2Proof.Machine

/-- One of the eight shifts of R141. -/
def crcShift (c : Word16) : Word16 :=
  if c.msb then (c <<< 1) ^^^ Config.crcPoly else c <<< 1

/-- `k` shifts of R141. -/
def crcShifts : Nat → Word16 → Word16
  | 0, c => c
  | k + 1, c => crcShifts k (crcShift c)

/-- A byte as its bits enter the register: most significant first as `CRC_MSB_FIRST` says (R9, R140), with no
reflection. -/
def crcInput (b : Byte) : Byte := if Config.crcMsbFirst then b else b.reverse

/-- `crc16_step(c, b)` (R141): the byte enters at the top of the register. -/
def crc16Step (c : Word16) (b : Byte) : Word16 := crcShifts 8 (c ^^^ ((crcInput b).setWidth 16 <<< 8))

/-- The register after the bytes of a buffer (R142, R143). -/
def crcRun (c : Word16) (buf : List Byte) : Word16 := buf.foldl crc16Step c

/-- `crc16(B)` (R142), with the final exclusive-or of `CRC_XOROUT` (D10). -/
def crc16 (xorout : Word16) (buf : List Byte) : Word16 := crcRun Config.crcInit buf ^^^ xorout

/-- `wire_frame` (R99) of the fields and payload of `f`; the declared length and the CRC are those of the
payload, whatever `f.dlen`, `f.crcRx` and `f.crcValid` hold. -/
def wireFrame (xorout : Word16) (f : RawFrame) : List Byte :=
  let hdr := headerBytes { f with dlen := BitVec.ofNat 16 (f.payload.length - 1) }
  be16 Config.syncMarker ++ hdr ++ f.payload ++ be16 (crc16 xorout (hdr ++ f.payload))

end Sys2Proof.Machine
end

