-- ==== Sys2Proof/Machine/State.lean ====
section
/-! DEFINITION. The state of the three units (spec/10_state.md R20 to R43) as plain data, the records and events
they emit, the reasons an operation is refused, and the state right after reset (R43, R340). -/

namespace Sys2Proof.Machine

/-- The five conditions of spec/60_exceptions.md R300. -/
inductive Condition where
  | syncLoss
  | crcMismatch
  | applicationIdDrift
  | decodeTruncation
  /-- never raised by this hardware (R306) -/
  | unresolvedIdentifier
deriving DecidableEq, Repr

/-- `sync_state` (R21). -/
inductive SyncState where
  | seekingSync
  | readingHeader
  | readingBody
  | done
deriving DecidableEq, Repr

/-- An event of `sync_diag` (R31, R302, R303). -/
inductive SyncEvent where
  /-- `SyncLoss(g)` -/
  | syncLoss (g : Nat)
  /-- `CrcMismatch(appid, seq)` -/
  | crcMismatch (appid : BitVec 11) (seq : BitVec 14)
deriving DecidableEq, Repr

/-- An event of `col_diag` (R37, R304). -/
inductive ColEvent where
  /-- `ApplicationIdDrift(old, new, seq)` -/
  | applicationIdDrift (old new : BitVec 11) (seq : BitVec 14)
deriving DecidableEq, Repr

/-- A LogicalPacket (R36); the source's "optional unique_id" is the Unique-ID Resolver's and not held. -/
structure LogicalPacket where
  startSeq : BitVec 14
  endSeq : BitVec 14
  appid : BitVec 11
  payload : List Byte
  singleFragment : Bool
deriving DecidableEq, Repr

/-- `DecodeTruncation(needed, have)` (R305): the byte count the failing read needed, the buffer's length. -/
structure Truncation where
  needed : Nat
  avail : Nat
deriving DecidableEq, Repr

/-- What a CODEC operation delivers (the result column of R120). -/
inductive Result where
  /-- no CODEC operation has run yet -/
  | none
  /-- a 16-bit code or CRC register: `ENC10P6`, `CRC16`, `CRC16.STEP` -/
  | code (c : Word16)
  /-- one value: `DEC10P6` -/
  | value (v : Word32)
  /-- five words: `ENC4TO5` -/
  | words (w0 w1 w2 w3 w4 : Word16)
  /-- four values: `DEC4TO5` -/
  | values (v0 v1 v2 v3 : Word32)
  /-- a byte buffer: `ENC10P6.BUF`, `ENC4TO5.BUF`, `ENCSLZ.U`, `ENCSLZ.S` -/
  | bytes (b : List Byte)
  /-- an array: `DEC10P6.BUF`, `DEC4TO5.BUF` -/
  | array (a : List Word32)
  /-- an array and the number of bytes consumed: `DECSLZ.U`, `DECSLZ.S` (R250) -/
  | slzArray (a : List Word32) (consumed : Nat)
  /-- `DecodeTruncation`, the whole result of the operation (R305) -/
  | truncation (t : Truncation)
deriving DecidableEq, Repr

/-- The machine. Field by field: INVENTORY.md, '## State'. -/
structure State where
  /-- `sync_state` (R21) -/
  syncState : SyncState
  /-- `window` (R23) -/
  window : BitVec 16
  /-- `seek_count` (R24), a number of `GARBAGE_WIDTH` bits (log entry 7) -/
  seekCount : Nat
  /-- `garbage_count` (R25), a number of `GARBAGE_WIDTH` bits (log entry 7) -/
  garbageCount : Nat
  /-- `hdr_buf` (R26) -/
  hdrBuf : List Byte
  /-- `h_version` (R27) -/
  hVersion : BitVec 3
  /-- `h_type` (R27) -/
  hType : BitVec 1
  /-- `h_sec` (R27) -/
  hSec : BitVec 1
  /-- `h_appid` (R27) -/
  hAppid : BitVec 11
  /-- `h_gflags` (R27) -/
  hGflags : BitVec 2
  /-- `h_seq` (R27) -/
  hSeq : BitVec 14
  /-- `h_dlen` (R27) -/
  hDlen : BitVec 16
  /-- `body_buf` (R28) -/
  bodyBuf : List Byte
  /-- `partial_at_end` (R29) -/
  partialAtEnd : Bool
  /-- `frame_out` (R31) -/
  frameOut : List RawFrame
  /-- `sync_diag` (R31) -/
  syncDiag : List SyncEvent
  /-- `acc` (R32) -/
  acc : List Byte
  /-- `last_appid` (R33) -/
  lastAppid : BitVec 11
  /-- `start_seq` (R34) -/
  startSeq : BitVec 14
  /-- `single_fragment` (R35) -/
  singleFragment : Bool
  /-- `packet_out` (R37) -/
  packetOut : List LogicalPacket
  /-- `col_diag` (R37) -/
  colDiag : List ColEvent
  /-- `col_done` (R37) -/
  colDone : Bool
  /-- `residual_at_end` (R37) -/
  residualAtEnd : Bool
  /-- the parameters of R10 (log entry 7) -/
  cfg : Config
  /-- the model's own: commands presented and not yet taken (log entry 1) -/
  cmdIn : List Byte
  /-- the model's own: what the last CODEC operation delivered (log entry 8) -/
  result : Result
  /-- the model's own: frames of `frame_out` the coupling has pushed into `COL` (R75, log entry 4) -/
  delivered : Nat
deriving DecidableEq, Repr

/-- The table of R43, which R340 repeats: the state after power-on and after `RESET`. The last four fields are
the model's own (log entries 1, 4, 7, 8). -/
def State.reset : State where
  syncState := .seekingSync
  window := 0x0000#16
  seekCount := 0
  garbageCount := 0
  hdrBuf := []
  hVersion := 0
  hType := 0
  hSec := 0
  hAppid := 0
  hGflags := 0
  hSeq := 0
  hDlen := 0
  bodyBuf := []
  partialAtEnd := false
  frameOut := []
  syncDiag := []
  acc := []
  lastAppid := 0
  startSeq := 0
  singleFragment := true
  packetOut := []
  colDiag := []
  colDone := false
  residualAtEnd := false
  cfg := Config.default
  cmdIn := []
  result := .none
  delivered := 0

/-- The reasons the machine stops with a fault: there are none. Every condition of the spec is carried in the
data and the machine goes on (R301, R305, R317), so no operation raises a fault; safe. -/
inductive Fault where
deriving DecidableEq, Repr

/-- The reasons an operation is refused (R307: "an operation is refused when the spec gives it no meaning"). -/
inductive Refusal where
  /-- An instruction whose meaning is not written yet, by mnemonic. No arm of `exec` raises it. Safe. -/
  | notModelled (mnemonic : String)
  /-- Raised by `step` on a command byte outside R120 (R123). Safe: the spec gives it no meaning. -/
  | reservedCommand (code : Byte)
  /-- Raised by `step` on a command whose operand block is not whole (D40, log entry 3). Safe. -/
  | incompleteCommand (op : Opcode)
  /-- Raised by `step` on a `COL.PUSH` command whose `crc_valid` byte is neither 0 nor 1 (U4, log entry 13). Safe. -/
  | badCrcValid (b : Byte)
  /-- Raised by `SYNC.PUSH` and `SYNC.END` in `DONE` (R157, R160). Safe. -/
  | syncDone
  /-- Raised by `COL.PUSH` and `COL.END` while `col_done` is 1 (R188). Safe. -/
  | colDone
  /-- Raised by `COL.PUSH` of a RawFrame whose payload is not `dlen + 1` bytes (R180, U4). Safe. -/
  | badFrameLength
  /-- Raised by `COL.PUSH` where a finite `ACC_MAX` would be exceeded (R186). Safe. -/
  | accMaxExceeded
  /-- Raised by `COL.PUSH` of a RawFrame whose payload exceeds `MAX_PAYLOAD` (R307, log entry 21). Safe. -/
  | maxPayloadExceeded
  /-- Raised by a codec array operation whose element count exceeds a finite `N_MAX` (R307, D39). Safe. -/
  | nMaxExceeded
  /-- Raised by `ENC4TO5.BUF` and `DEC4TO5.BUF` on a count that is no multiple of 4 (R226, R227). Safe. -/
  | countNotMultipleOf4
  /-- Raised by the ten data-format rows of the table: a layout of data is no operation (R120, R123, log entry 11).
  Safe. -/
  | dataFormat (fmt : DataFormat)
deriving DecidableEq, Repr

end Sys2Proof.Machine
end

