-- ==== Sys2Proof/Machine/Flags.lean ====
section
/-! DEFINITION. The status flags of spec/10_state.md R39, each computed in one place, and the codes of the
conditions and of `sync_state`. The hardware has no condition codes. -/

namespace Sys2Proof.Machine

/-- `crc_valid` (spec/40_crc16.md R145): the CRC over header and payload equals the received one. -/
def crcValidFlag (cfg : Config) (hdr payload : List Byte) (crcRx : Word16) : Bool :=
  crc16 cfg.crcXorout (hdr ++ payload) == crcRx

/-- Whether `group_flags` ends a logical packet (R97, R184). -/
def isTerminal (gflags : BitVec 2) : Bool := gflags == Config.terminalFlags

/-- `single_fragment` after a `COL.PUSH`: 1 when the packet was emitted, 0 while the run goes on (R184, R185). -/
def singleFragmentAfter (gflags : BitVec 2) : Bool := isTerminal gflags

/-- Whether `SYNC.END` sets `partial_at_end`: the stream ended inside a frame (R29, R160). -/
def endsInsideFrame : SyncState → Bool
  | .seekingSync => false
  | .readingHeader => true
  | .readingBody => true
  | .done => false

/-- `residual_at_end` after `COL.END`: set when `acc` is not empty, else kept (R188). -/
def residualAfterEnd (acc : List Byte) (residual : Bool) : Bool := residual || !acc.isEmpty

/-- The codes of `sync_state` (R21). -/
def SyncState.code : SyncState → BitVec 2
  | .seekingSync => 0
  | .readingHeader => 1
  | .readingBody => 2
  | .done => 3

/-- The codes of R300. -/
def Condition.code : Condition → Nat
  | .syncLoss => 1
  | .crcMismatch => 2
  | .applicationIdDrift => 3
  | .decodeTruncation => 4
  | .unresolvedIdentifier => 5

/-- The condition an event of `sync_diag` records. -/
def SyncEvent.condition : SyncEvent → Condition
  | .syncLoss _ => .syncLoss
  | .crcMismatch _ _ => .crcMismatch

/-- The condition an event of `col_diag` records. -/
def ColEvent.condition : ColEvent → Condition
  | .applicationIdDrift _ _ _ => .applicationIdDrift

/-- The condition a CODEC result reports, if it is one (R305). -/
def Result.condition : Result → Option Condition
  | .truncation _ => some .decodeTruncation
  | _ => Option.none

end Sys2Proof.Machine
end

