-- ==== Sys2Proof/Machine/Ops.lean ====
section
/-! DEFINITION. The named operations every meaning is written over: raising a condition (R301), the saturating
counters (R24, R25), the rolling window (R23), the output sequences (R31, R37), delivering a CODEC result,
and reading a status register (R40). -/

namespace Sys2Proof.Machine

/-- What an operation answers. -/
abbrev Out := Host.Outcome State Fault Refusal

/-! ### Raising a condition (R301): an event is appended and the operation goes on. Nothing is saved, no control is
transferred (R317), and there is nothing to return from (R318). -/

/-- `raise` in unit `SYNC` (R301, R302, R303). -/
def raiseSync (e : SyncEvent) (s : State) : State := { s with syncDiag := s.syncDiag ++ [e] }

/-- `raise` in unit `COL` (R301, R304). -/
def raiseCol (e : ColEvent) (s : State) : State := { s with colDiag := s.colDiag ++ [e] }

/-! ### Output sequences (R16, R31, R37) -/

/-- `emit frame_out, f`. -/
def emitFrame (f : RawFrame) (s : State) : State := { s with frameOut := s.frameOut ++ [f] }

/-- `emit packet_out, p`. -/
def emitPacket (p : LogicalPacket) (s : State) : State := { s with packetOut := s.packetOut ++ [p] }

/-! ### Counters and window -/

/-- `min(x + y, 2^w - 1)`: addition that saturates at the width `w` (R24, R25). -/
def satAdd (w x y : Nat) : Nat := min (x + y) (2 ^ w - 1)

/-- A byte shifted into the rolling window (R23): the older byte is high. -/
def shiftWindow (w : Word16) (b : Byte) : Word16 := (w <<< 8) ||| b.setWidth 16

/-- Adds `g` garbage bytes to `garbage_count` and, if there were any, raises `SyncLoss(g)` (R153, R160, R302). -/
def reportGarbage (g : Nat) (s : State) : State :=
  let s := { s with garbageCount := satAdd s.cfg.garbageWidth s.garbageCount g }
  if g = 0 then s else raiseSync (.syncLoss g) s

/-- `window <- 0x0000; seek_count <- 0`: the marker search starts clean (R153, R156, D7). -/
def clearSeek (s : State) : State := { s with window := 0x0000#16, seekCount := 0 }

/-! ### CODEC results -/

/-- Delivers the result of a CODEC operation; `CODEC` has no state and nothing else changes (R38). -/
def deliver (r : Result) (s : State) : State := { s with result := r }

/-- Whether an element count is within `N_MAX` (R10, D39). -/
def admitsCount (cfg : Config) (n : Nat) : Bool :=
  match cfg.nMax with
  | some m => decide (n ≤ m)
  | none => true

/-- A codec array operation of `n` elements: refused beyond `N_MAX` (R307), else its result is delivered. -/
def arrayOp (n : Nat) (r : Result) (s : State) : Out :=
  if admitsCount s.cfg n then .next (deliver r s) else .refused .nMaxExceeded

/-- A decoder's result, an array or `DecodeTruncation` (R305). -/
def arrayResult : Except Truncation (List Word32) → Result
  | .ok a => .array a
  | .error t => .truncation t

/-! ### Status registers (R40) -/

/-- The registers the environment may read at any time (R40). -/
inductive StatusRegister where
  | syncState
  | garbageCount
  | partialAtEnd
  | colDone
  | residualAtEnd
  | singleFragment
  | lenAcc
  | lastAppid
  | startSeq
deriving DecidableEq, Repr

/-- The value a read of a status register returns: what the last completed operation left; reading has no side
effect (R40, R74). -/
def readStatus (r : StatusRegister) (s : State) : Nat :=
  match r with
  | .syncState => s.syncState.code.toNat
  | .garbageCount => s.garbageCount
  | .partialAtEnd => s.partialAtEnd.toNat
  | .colDone => s.colDone.toNat
  | .residualAtEnd => s.residualAtEnd.toNat
  | .singleFragment => s.singleFragment.toNat
  | .lenAcc => s.acc.length
  | .lastAppid => s.lastAppid.toNat
  | .startSeq => s.startSeq.toNat

end Sys2Proof.Machine
end

