-- ==== Sys2Proof/Machine/Codec10p6.lean ====
section
/-! DEFINITION. Codec (a), 10-plus-6 (spec/43_codec_10plus6.md): `ENC10P6` (R201), `DEC10P6` (R204) and the buffer
forms (R208, R209). -/

namespace Sys2Proof.Machine

/-- The magnitude aligned so that its highest set bit is at bit 15 (R201, R202). -/
def align16 (a : Word32) : Word32 :=
  if clz32 a ≤ 16 then a >>> (16 - clz32 a) else a <<< (clz32 a - 16)

/-- `enc10p6(v)` (R201). -/
def enc10p6 (v : Word32) : Word16 :=
  if v = 0#32 then 0x0000#16
  else
    ((align16 (abs32 v)).setWidth 16 &&& 0xFFC0#16) ||| ((signBit (sgn v)).setWidth 16 <<< 5) |||
      BitVec.ofNat 16 (clz32 (abs32 v))

/-- The magnitude a code holds: `code & 0xFFC0` shifted back by its leading-zero count (R108, R204). -/
def unalign16 (c : Word16) : Word32 :=
  let lz := (c.extractLsb' 0 5).toNat
  let m := (c &&& 0xFFC0#16).setWidth 32
  if lz ≤ 16 then m <<< (16 - lz) else m >>> (lz - 16)

/-- `dec10p6(c)` (R204), total on all patterns. -/
def dec10p6 (c : Word16) : Word32 :=
  if c = 0x0000#16 then 0#32
  else if c.getLsbD 5 then neg32 (unalign16 c) else unalign16 c

/-- The buffer of `ENC10P6.BUF` (R208). -/
def enc10p6Buf (order : WordOrder) (a : List Word32) : List Byte :=
  a.flatMap fun v => bufWord order (enc10p6 v)

/-- The first `n` codes of a buffer decoded; a buffer too short ends it early (the check of R209 rules that out). -/
def dec10p6Codes (order : WordOrder) : Nat → List Byte → List Word32
  | n + 1, b0 :: b1 :: rest => dec10p6 (readBufWord order b0 b1) :: dec10p6Codes order n rest
  | _, _ => []

/-- `dec10p6_buf(B, N)` (R209). -/
def dec10p6Buf (order : WordOrder) (buf : List Byte) (n : Nat) : Except Truncation (List Word32) :=
  if 2 * n > buf.length then .error { needed := 2 * n, avail := buf.length }
  else .ok (dec10p6Codes order n buf)

/-- `ENC10P6 v` (R201). -/
def execEnc10p6 (v : Word32) (s : State) : Out := .next (deliver (.code (enc10p6 v)) s)

/-- `DEC10P6 c` (R204). -/
def execDec10p6 (c : Word16) (s : State) : Out := .next (deliver (.value (dec10p6 c)) s)

/-- `ENC10P6.BUF A` (R208). -/
def execEnc10p6Buf (a : List Word32) (s : State) : Out :=
  arrayOp a.length (.bytes (enc10p6Buf s.cfg.bufWordOrder a)) s

/-- `DEC10P6.BUF B, N` (R209). -/
def execDec10p6Buf (buf : List Byte) (n : Nat) (s : State) : Out :=
  arrayOp n (arrayResult (dec10p6Buf s.cfg.bufWordOrder buf n)) s

end Sys2Proof.Machine
end

