-- ==== Sys2Proof/Machine/Codec4to5.lean ====
section
/-! DEFINITION. Codec (b), 4-into-5 (spec/44_codec_4into5.md): `ENC4TO5` (R221), `DEC4TO5` (R224) and the buffer forms
(R226, R227). -/

namespace Sys2Proof.Machine

/-- The shift of a lane: `max(0, 18 - lz)` (R221). -/
def laneShift (v : Word32) : Nat := 18 - clz32 (abs32 v)

/-- The shift nibble of a lane (R221). -/
def laneNibble (v : Word32) : BitVec 4 :=
  BitVec.ofNat 4 (if laneShift v ≥ 16 then laneShift v - 16 else laneShift v)

/-- The value word of a lane (R103, R221). -/
def laneWord (v : Word32) : Word16 :=
  pack4to5 (signBit (sgn v)) (BitVec.ofBool (decide (laneShift v ≥ 16)))
    ((abs32 v >>> laneShift v).setWidth 14)

/-- Word 0 of `enc4to5` (R102, R221). -/
def enc4to5W0 (v0 v1 v2 v3 : Word32) : Word16 :=
  packNibbles (laneNibble v0) (laneNibble v1) (laneNibble v2) (laneNibble v3)

/-- One lane of `dec4to5` (R224): the nibble, then the lane's word. -/
def decLane (nib : BitVec 4) (w : Word16) : Word32 :=
  let a := shl32 ((w.extractLsb' 0 14).setWidth 32) (nib.toNat + 16 * (w.getLsbD 14).toNat)
  if w.getLsbD 15 then neg32 a else a

/-- The buffer of `ENC4TO5.BUF` (R226): five words for each group of four values. -/
def enc4to5Groups (order : WordOrder) : List Word32 → List Byte
  | v0 :: v1 :: v2 :: v3 :: rest =>
    bufWord order (enc4to5W0 v0 v1 v2 v3) ++ bufWord order (laneWord v0) ++ bufWord order (laneWord v1) ++
      bufWord order (laneWord v2) ++ bufWord order (laneWord v3) ++ enc4to5Groups order rest
  | _ => []

/-- The first `g` groups of a buffer decoded; a buffer too short ends it early (the check of R227 rules that out). -/
def dec4to5Groups (order : WordOrder) : Nat → List Byte → List Word32
  | g + 1, a0 :: a1 :: b0 :: b1 :: c0 :: c1 :: d0 :: d1 :: e0 :: e1 :: rest =>
    let w0 := readBufWord order a0 a1
    decLane (nibble w0 0) (readBufWord order b0 b1) :: decLane (nibble w0 1) (readBufWord order c0 c1) ::
      decLane (nibble w0 2) (readBufWord order d0 d1) :: decLane (nibble w0 3) (readBufWord order e0 e1) ::
      dec4to5Groups order g rest
  | _, _ => []

/-- `dec4to5_buf(B, N)` (R227) for a count that is a multiple of 4. -/
def dec4to5Buf (order : WordOrder) (buf : List Byte) (n : Nat) : Except Truncation (List Word32) :=
  if 10 * (n / 4) > buf.length then .error { needed := 10 * (n / 4), avail := buf.length }
  else .ok (dec4to5Groups order (n / 4) buf)

/-- `ENC4TO5 v0, v1, v2, v3` (R221, R222). -/
def execEnc4to5 (v0 v1 v2 v3 : Word32) (s : State) : Out :=
  .next (deliver (.words (enc4to5W0 v0 v1 v2 v3) (laneWord v0) (laneWord v1) (laneWord v2) (laneWord v3)) s)

/-- `DEC4TO5 w0, w1, w2, w3, w4` (R224). -/
def execDec4to5 (w0 w1 w2 w3 w4 : Word16) (s : State) : Out :=
  .next (deliver (.values (decLane (nibble w0 0) w1) (decLane (nibble w0 1) w2) (decLane (nibble w0 2) w3)
    (decLane (nibble w0 3) w4)) s)

/-- `ENC4TO5.BUF A` (R226). -/
def execEnc4to5Buf (a : List Word32) (s : State) : Out :=
  if a.length % 4 ≠ 0 then .refused .countNotMultipleOf4
  else arrayOp a.length (.bytes (enc4to5Groups s.cfg.bufWordOrder a)) s

/-- `DEC4TO5.BUF B, N` (R227). -/
def execDec4to5Buf (buf : List Byte) (n : Nat) (s : State) : Out :=
  if n % 4 ≠ 0 then .refused .countNotMultipleOf4
  else arrayOp n (arrayResult (dec4to5Buf s.cfg.bufWordOrder buf n)) s

end Sys2Proof.Machine
end

