-- ==== Sys2Proof/Machine/CodecSlz.lean ====
section
/-! DEFINITION. Codec (c), the shared-leading-zero run codec (spec/45_codec_sharedlz.md): `ENCSLZ.U` (R243), `ENCSLZ.S`
(R244), `DECSLZ.U` (R250), `DECSLZ.S` (R251). -/

namespace Sys2Proof.Machine

/-- `rawcls(a)` (R241). -/
def rawClass (a : Word32) : Nat := 17 - clz32 a

/-- `cls(a)` (R241): raw class 17 is collapsed to 16. -/
def slzClass (a : Word32) : Nat := if rawClass a = 17 then 16 else rawClass a

/-- An element as the encoder sees it: magnitude and sign (R242). -/
structure SlzElem where
  mag : Word32
  neg : Bool
deriving DecidableEq, Repr

/-- An element of the unsigned variant (R243). -/
def unsignedElem (a : Word32) : SlzElem := { mag := a, neg := false }

/-- An element of the signed variant (R244); zero is non-negative (D27). -/
def signedElem (v : Word32) : SlzElem := { mag := abs32 v, neg := sgn v }

/-- A run: its shift, its sign and the magnitudes of its elements (R105, R245). -/
structure SlzRun where
  shift : Nat
  neg : Bool
  mags : List Word32
deriving DecidableEq, Repr

/-- The run an element starts (R245). -/
def startRun (e : SlzElem) : SlzRun := { shift := slzClass e.mag, neg := e.neg, mags := [e.mag] }

/-- The class an element is compared with: collapsed, or raw where `SLZ_COLLAPSE_BEFORE_COMPARE` is false (R249). -/
def compareClass (collapse : Bool) (a : Word32) : Nat := if collapse then slzClass a else rawClass a

/-- Whether an element joins a run (R243, R245): fewer than 255 elements, class within 1 of the run's shift, same sign. -/
def joins (collapse : Bool) (r : SlzRun) (e : SlzElem) : Bool :=
  decide (r.mags.length < Config.runMax) && decide (compareClass collapse e.mag ≤ r.shift + 1) &&
    decide (r.shift ≤ compareClass collapse e.mag + 1) && (e.neg == r.neg)

/-- The runs of an array whose first elements stand in `cur`, cut greedily (R243, R245). -/
def cutRuns (collapse : Bool) (cur : SlzRun) : List SlzElem → List SlzRun
  | [] => [cur]
  | e :: rest =>
    if joins collapse cur e then cutRuns collapse { cur with mags := cur.mags ++ [e.mag] } rest
    else cur :: cutRuns collapse (startRun e) rest

/-- The runs of an array (R243); none for the empty array (D30). -/
def slzRuns (collapse : Bool) : List SlzElem → List SlzRun
  | [] => []
  | e :: rest => cutRuns collapse (startRun e) rest

/-- The stored word of an element (R246): `(mag >> S) mod 2^16`. -/
def slzStored (shift : Nat) (mag : Word32) : Word16 := (mag >>> shift).setWidth 16

/-- A run on the stream (R105, R243): shift byte with the sign in bit 7, length byte, the words little-endian. -/
def runBytes (r : SlzRun) : List Byte :=
  shiftByte (signBit r.neg) (BitVec.ofNat 7 r.shift) :: BitVec.ofNat 8 r.mags.length ::
    r.mags.flatMap fun m => le16 (slzStored r.shift m)

/-- `encslz(A, signed)` (R243, R244) over the elements of either variant. -/
def encSlz (collapse : Bool) (es : List SlzElem) : List Byte := (slzRuns collapse es).flatMap runBytes

/-- The sign and shift of a shift byte: the signed variant folds the sign into bit 7 (R250, R251). -/
def readShiftByte (signed : Bool) (h : Byte) : Bool × Nat :=
  if signed then (h.getLsbD 7, (h.extractLsb' 0 7).toNat) else (false, h.toNat)

/-- The element a stored word stands for (R110, R250, R251). -/
def slzElement (neg : Bool) (shift : Nat) (w : Word16) : Word32 :=
  if neg then neg32 (shl32 (w.setWidth 32) shift) else shl32 (w.setWidth 32) shift

/-- The decoder's loop (R250) from index `p` of a buffer of `len` bytes: `want` elements are still to come, `left` of
them from the run being read, whose sign and shift are `neg` and `shift`. Two bytes are read at a time, a
run header when no element of a run is left, a word otherwise, each after its check (R253). -/
def decSlzLoop (signed : Bool) (len : Nat) :
    List Byte → Nat → Nat → Nat → Bool → Nat → Except Truncation (List Word32 × Nat)
  | _, p, 0, _, _, _ => .ok ([], p)
  | b0 :: b1 :: rest, p, want + 1, 0, _, _ =>
    decSlzLoop signed len rest (p + 2) (want + 1) b1.toNat (readShiftByte signed b0).1 (readShiftByte signed b0).2
  | b0 :: b1 :: rest, p, want + 1, left + 1, neg, shift =>
    match decSlzLoop signed len rest (p + 2) want left neg shift with
    | .ok (out, q) => .ok (slzElement neg shift (u16le b0 b1) :: out, q)
    | .error t => .error t
  | _, p, _ + 1, _, _, _ => .error { needed := p + 2, avail := len }

/-- `decslz(B, N, signed)` (R250, R251). -/
def decSlz (signed : Bool) (buf : List Byte) (n : Nat) : Except Truncation (List Word32 × Nat) :=
  decSlzLoop signed buf.length buf 0 n 0 false 0

/-- The result of a codec (c) decoder: the array and the bytes consumed, or `DecodeTruncation` (R250, R305). -/
def slzResult : Except Truncation (List Word32 × Nat) → Result
  | .ok (a, p) => .slzArray a p
  | .error t => .truncation t

/-- `ENCSLZ.U A` (R243). -/
def execEncSlzU (a : List Word32) (s : State) : Out :=
  arrayOp a.length (.bytes (encSlz s.cfg.slzCollapseBeforeCompare (a.map unsignedElem))) s

/-- `ENCSLZ.S A` (R244). -/
def execEncSlzS (a : List Word32) (s : State) : Out :=
  arrayOp a.length (.bytes (encSlz s.cfg.slzCollapseBeforeCompare (a.map signedElem))) s

/-- `DECSLZ.U B, N` (R250). -/
def execDecSlzU (buf : List Byte) (n : Nat) (s : State) : Out := arrayOp n (slzResult (decSlz false buf n)) s

/-- `DECSLZ.S B, N` (R251). -/
def execDecSlzS (buf : List Byte) (n : Nat) (s : State) : Out := arrayOp n (slzResult (decSlz true buf n)) s

end Sys2Proof.Machine
end

