-- ==== Sys2Proof/Machine/Col.lean ====
section
/-! DEFINITION. Unit `COL` (spec/42_collator.md): `COL.PUSH` (R180 to R187) and `COL.END` (R188). -/

namespace Sys2Proof.Machine

/-- The first frame of a run latches `start_seq` (R181); a later one whose application id differs raises the drift
condition (R182). -/
def openRun (f : RawFrame) (s : State) : State :=
  if s.acc = [] then { s with startSeq := f.seq }
  else if f.appid = s.lastAppid then s
  else raiseCol (.applicationIdDrift s.lastAppid f.appid f.seq) s

/-- The payload is appended swapped and the application id kept (R182, R183). -/
def appendPayload (f : RawFrame) (s : State) : State :=
  { s with lastAppid := f.appid, acc := s.acc ++ swap16 f.payload }

/-- The LogicalPacket of the current run, ended by `f` (R184, R36). -/
def currentPacket (f : RawFrame) (s : State) : LogicalPacket :=
  { startSeq := s.startSeq, endSeq := f.seq, appid := s.lastAppid, payload := s.acc,
    singleFragment := s.singleFragment }

/-- A terminal frame emits the packet and empties the accumulator (R184); any other keeps the run open (R185). -/
def closeRun (f : RawFrame) (s : State) : State :=
  if isTerminal f.gflags then
    { emitPacket (currentPacket f s) s with acc := [], singleFragment := singleFragmentAfter f.gflags }
  else { s with singleFragment := singleFragmentAfter f.gflags }

/-- A frame taken into the run (R180). `crc_valid`, `crc_rx`, `version`, `ptype` and `sec_hdr` are not read (R187). -/
def collate (f : RawFrame) (s : State) : State := closeRun f (appendPayload f (openRun f s))

/-- Whether the accumulator can take `k` more bytes (R186). -/
def admitsAcc (cfg : Config) (acc : List Byte) (k : Nat) : Bool :=
  match cfg.accMax with
  | some m => decide (acc.length + k ≤ m)
  | none => true

/-- Whether a payload of `k` bytes is within `MAX_PAYLOAD` (R307). -/
def admitsPayload (cfg : Config) (k : Nat) : Bool := decide (k ≤ cfg.maxPayload)

/-- `COL.PUSH f` (R180). -/
def execColPush (f : RawFrame) (s : State) : Out :=
  if s.colDone then .refused .colDone
  else if f.sized = false then .refused .badFrameLength
  else if admitsAcc s.cfg s.acc f.payload.length = false then .refused .accMaxExceeded
  else if admitsPayload s.cfg f.payload.length then .next (collate f s)
  else .refused .maxPayloadExceeded

/-- `COL.END` (R188). -/
def execColEnd (s : State) : Out :=
  if s.colDone then .refused .colDone
  else .next { s with residualAtEnd := residualAfterEnd s.acc s.residualAtEnd, acc := [], colDone := true }

end Sys2Proof.Machine
end

