-- ==== Sys2Proof/Machine/Crc16.lean ====
section
/-! DEFINITION. The CRC operations of `CODEC` (spec/40_crc16.md): `CRC16.STEP` (R141) and `CRC16` (R142). -/

namespace Sys2Proof.Machine

/-- `CRC16 B` (R142). -/
def execCrc16 (buf : List Byte) (s : State) : Out := .next (deliver (.code (crc16 s.cfg.crcXorout buf)) s)

/-- `CRC16.STEP c, b` (R141). -/
def execCrc16Step (c : Word16) (b : Byte) (s : State) : Out := .next (deliver (.code (crc16Step c b)) s)

end Sys2Proof.Machine
end

