-- ==== Sys2Proof/Machine/Formats.lean ====
section
/-! DEFINITION. The ten data-format rows of spec/opcode_table.json ("kind": "data format, not an operation"). The spec
gives them a layout, which Operands.lean and Decode.lean hold, and no effect: R120 lists the operations, and
what is not in it is refused (R19, R123; log entry 11). -/

namespace Sys2Proof.Machine

/-- A data format issued as if it were an operation (R19, R123). -/
def refuseFormat (fmt : DataFormat) : Out := .refused (.dataFormat fmt)

/-- `FRAME.MARKER` (R91) is no operation. -/
def execFrameMarker (_ : State) : Out := refuseFormat .frameMarker

/-- `FRAME.W0` (R92) is no operation. -/
def execFrameW0 (_ : BitVec 3) (_ _ : BitVec 1) (_ : BitVec 11) (_ : State) : Out := refuseFormat .frameW0

/-- `FRAME.W1` (R93) is no operation. -/
def execFrameW1 (_ : BitVec 2) (_ : BitVec 14) (_ : State) : Out := refuseFormat .frameW1

/-- `FRAME.W2` (R94) is no operation. -/
def execFrameW2 (_ : BitVec 16) (_ : State) : Out := refuseFormat .frameW2

/-- `CODE10P6` (R100) is no operation. -/
def execCode10p6 (_ : BitVec 10) (_ : BitVec 1) (_ : BitVec 5) (_ : State) : Out := refuseFormat .code10p6

/-- `CODE4TO5.W0` (R102) is no operation. -/
def execCode4to5W0 (_ _ _ _ : BitVec 4) (_ : State) : Out := refuseFormat .code4to5W0

/-- `CODE4TO5.WI` (R103) is no operation. -/
def execCode4to5Wi (_ _ : BitVec 1) (_ : BitVec 14) (_ : State) : Out := refuseFormat .code4to5Wi

/-- `SLZ.HDR.U` (R105) is no operation. -/
def execSlzHdrU (_ _ : BitVec 8) (_ : State) : Out := refuseFormat .slzHdrU

/-- `SLZ.HDR.S` (R105) is no operation. -/
def execSlzHdrS (_ : BitVec 1) (_ : BitVec 7) (_ : BitVec 8) (_ : State) : Out := refuseFormat .slzHdrS

/-- `SLZ.WORD` (R105) is no operation. -/
def execSlzWord (_ : BitVec 16) (_ : State) : Out := refuseFormat .slzWord

end Sys2Proof.Machine
end

