-- ==== Sys2Proof/Machine/Reset.lean ====
section
/-! DEFINITION. `RESET` (spec/70_reset_and_hazards.md R340), accepted in every state. -/

namespace Sys2Proof.Machine

/-- Every register, buffer and output sequence of `SYNC` and `COL` at the value of R43. The parameters are not
changed by any operation (R9, R10), `CODEC` is not affected, and the commands still to come are the
environment's (log entry 9). -/
def resetUnits (s : State) : State :=
  { State.reset with cfg := s.cfg, cmdIn := s.cmdIn, result := s.result }

/-- `RESET` (R340). -/
def execReset (s : State) : Out := .next (resetUnits s)

end Sys2Proof.Machine
end

