-- ==== Sys2Proof/Decode.lean ====
section
/-! DEFINITION. The command format `CMD8` (spec/30_encoding.md R120 to R123): the decoder, total on any bytes and
rejecting by name, then the encoder; the ten data formats as 16-bit words (R91 to R94, R100 to R105) with
their own decoder and encoder; and the words of spec/opcode_table.json given to the decoder. -/

namespace Sys2Proof

open Machine (u16be u16le u32le be16 le16 le32)

/-! ### The command byte -/

/-- The 8-bit operation code of R120: unit in bits 7:4, function in bits 3:0 (R121). -/
def Opcode.code : Opcode → Byte
  | .syncPush => 0x01#8
  | .syncEnd => 0x02#8
  | .colPush => 0x11#8
  | .colEnd => 0x12#8
  | .enc10p6 => 0x20#8
  | .dec10p6 => 0x21#8
  | .enc4to5 => 0x22#8
  | .dec4to5 => 0x23#8
  | .encSlzU => 0x24#8
  | .encSlzS => 0x25#8
  | .decSlzU => 0x26#8
  | .decSlzS => 0x27#8
  | .enc10p6Buf => 0x28#8
  | .dec10p6Buf => 0x29#8
  | .enc4to5Buf => 0x2A#8
  | .dec4to5Buf => 0x2B#8
  | .crc16 => 0x30#8
  | .crc16Step => 0x31#8
  | .reset => 0xFF#8

/-- The rows of R120, in the table's order. -/
def Opcode.all : List Opcode :=
  [.syncPush, .syncEnd, .colPush, .colEnd, .enc10p6, .dec10p6, .enc4to5, .dec4to5, .encSlzU, .encSlzS] ++
    [.decSlzU, .decSlzS, .enc10p6Buf, .dec10p6Buf, .enc4to5Buf, .dec4to5Buf, .crc16, .crc16Step, .reset]

/-- The operation a command byte selects; a byte outside R120 is reserved (R123). -/
def opcodeOf (b : Byte) : Option Opcode := Opcode.all.find? fun o => o.code == b

/-! ### Operand blocks (R122) -/

/-- Why bytes are no command. -/
inductive DecodeError where
  /-- nothing has been presented -/
  | noCommand
  /-- a command byte outside R120 (R123) -/
  | reserved (code : Byte)
  /-- the operand block is shorter than R122 says (D40, log entry 3) -/
  | incomplete (op : Opcode)
  /-- a `COL.PUSH` whose last byte is neither 0 nor 1 (R122, U4, log entry 13) -/
  | badCrcValid (b : Byte)
deriving DecidableEq, Repr

/-- A 4-byte count or length of R122. -/
def takeCount : List Byte → Option (Nat × List Byte)
  | b0 :: b1 :: b2 :: b3 :: rest => some ((u32le b0 b1 b2 b3).toNat, rest)
  | _ => none

/-- `n` bytes of a buffer. -/
def takeBytes (n : Nat) (bs : List Byte) : Option (List Byte × List Byte) :=
  if n ≤ bs.length then some (bs.take n, bs.drop n) else none

/-- `n` values of 4 bytes each, little-endian. -/
def takeWords : Nat → List Byte → Option (List Word32 × List Byte)
  | 0, bs => some ([], bs)
  | n + 1, b0 :: b1 :: b2 :: b3 :: rest =>
    match takeWords n rest with
    | some (ws, rest') => some (u32le b0 b1 b2 b3 :: ws, rest')
    | none => none
  | _ + 1, _ => none

/-- An array operand: the count `n` as 4 bytes, then `4 * n` bytes (R122). -/
def takeArray (bs : List Byte) : Option (List Word32 × List Byte) :=
  match takeCount bs with
  | some (n, rest) => takeWords n rest
  | none => none

/-- A buffer operand: the length as 4 bytes, then the bytes (R122). -/
def takeBuffer (bs : List Byte) : Option (List Byte × List Byte) :=
  match takeCount bs with
  | some (len, rest) => takeBytes len rest
  | none => none

/-- The operands of a decoder operation: the count `N`, then the buffer (R122). -/
def takeDecoderOperands (bs : List Byte) : Option ((List Byte × Nat) × List Byte) :=
  match takeCount bs with
  | some (n, rest) =>
    match takeBuffer rest with
    | some (buf, rest') => some ((buf, n), rest')
    | none => none
  | none => none

/-- The fields of the three header words, parsed as R95 says, with the payload and CRC still open. -/
def headerFields (b0 b1 b2 b3 b4 b5 : Byte) : RawFrame where
  version := Machine.w0Version (u16be b0 b1)
  ptype := Machine.w0Ptype (u16be b0 b1)
  secHdr := Machine.w0SecHdr (u16be b0 b1)
  appid := Machine.w0Appid (u16be b0 b1)
  gflags := Machine.w1Gflags (u16be b2 b3)
  seq := Machine.w1Seq (u16be b2 b3)
  dlen := u16be b4 b5
  payload := []
  crcRx := 0
  crcValid := false

/-- The RawFrame operand of `COL.PUSH` (R122): header as on the wire, `dlen + 1` payload bytes, `be16(crc_rx)`,
one byte `crc_valid`. -/
def decodeColPush : List Byte → Except DecodeError (Instr × List Byte)
  | b0 :: b1 :: b2 :: b3 :: b4 :: b5 :: rest =>
    match takeBytes ((u16be b4 b5).toNat + 1) rest with
    | some (payload, c0 :: c1 :: v :: rest') =>
      let frame (valid : Bool) : RawFrame :=
        { headerFields b0 b1 b2 b3 b4 b5 with payload := payload, crcRx := u16be c0 c1, crcValid := valid }
      if v = 0#8 then .ok (.colPush (frame false), rest')
      else if v = 1#8 then .ok (.colPush (frame true), rest')
      else .error (.badCrcValid v)
    | _ => .error (.incomplete .colPush)
  | _ => .error (.incomplete .colPush)

/-- An operand block read by `take`, or the rejection of an incomplete one. -/
def decodeWith {α : Type} (op : Opcode) (f : α → Instr) (taken : Option (α × List Byte)) :
    Except DecodeError (Instr × List Byte) :=
  match taken with
  | some (a, rest) => .ok (f a, rest)
  | none => .error (.incomplete op)

/-- The operand block of each operation (R122). -/
def decodeOperands : Opcode → List Byte → Except DecodeError (Instr × List Byte)
  | .syncPush, b :: rest => .ok (.syncPush b, rest)
  | .syncPush, _ => .error (.incomplete .syncPush)
  | .syncEnd, rest => .ok (.syncEnd, rest)
  | .colPush, bs => decodeColPush bs
  | .colEnd, rest => .ok (.colEnd, rest)
  | .enc10p6, b0 :: b1 :: b2 :: b3 :: rest => .ok (.enc10p6 (u32le b0 b1 b2 b3), rest)
  | .enc10p6, _ => .error (.incomplete .enc10p6)
  | .dec10p6, b0 :: b1 :: rest => .ok (.dec10p6 (u16le b0 b1), rest)
  | .dec10p6, _ => .error (.incomplete .dec10p6)
  | .enc4to5, bs =>
    match takeWords 4 bs with
    | some ([v0, v1, v2, v3], rest) => .ok (.enc4to5 v0 v1 v2 v3, rest)
    | _ => .error (.incomplete .enc4to5)
  | .dec4to5, a0 :: a1 :: b0 :: b1 :: c0 :: c1 :: d0 :: d1 :: e0 :: e1 :: rest =>
    .ok (.dec4to5 (u16le a0 a1) (u16le b0 b1) (u16le c0 c1) (u16le d0 d1) (u16le e0 e1), rest)
  | .dec4to5, _ => .error (.incomplete .dec4to5)
  | .encSlzU, bs => decodeWith .encSlzU .encSlzU (takeArray bs)
  | .encSlzS, bs => decodeWith .encSlzS .encSlzS (takeArray bs)
  | .decSlzU, bs => decodeWith .decSlzU (fun p => .decSlzU p.1 p.2) (takeDecoderOperands bs)
  | .decSlzS, bs => decodeWith .decSlzS (fun p => .decSlzS p.1 p.2) (takeDecoderOperands bs)
  | .enc10p6Buf, bs => decodeWith .enc10p6Buf .enc10p6Buf (takeArray bs)
  | .dec10p6Buf, bs => decodeWith .dec10p6Buf (fun p => .dec10p6Buf p.1 p.2) (takeDecoderOperands bs)
  | .enc4to5Buf, bs => decodeWith .enc4to5Buf .enc4to5Buf (takeArray bs)
  | .dec4to5Buf, bs => decodeWith .dec4to5Buf (fun p => .dec4to5Buf p.1 p.2) (takeDecoderOperands bs)
  | .crc16, bs => decodeWith .crc16 .crc16 (takeBuffer bs)
  | .crc16Step, c0 :: c1 :: b :: rest => .ok (.crc16Step (u16le c0 c1) b, rest)
  | .crc16Step, _ => .error (.incomplete .crc16Step)
  | .reset, rest => .ok (.reset, rest)

/-- The first command of a byte sequence and the bytes after it (R121, R122), or why there is none. -/
def decode : List Byte → Except DecodeError (Instr × List Byte)
  | [] => .error .noCommand
  | b :: bs =>
    match opcodeOf b with
    | some op => decodeOperands op bs
    | none => .error (.reserved b)

/-! ### The encoder (R121, R122) -/

/-- A count or length as 4 bytes, little-endian (R122). -/
def count32 (n : Nat) : List Byte := le32 (BitVec.ofNat 32 n)

/-- An array operand (R122). -/
def arrayBytes (a : List Word32) : List Byte := count32 a.length ++ a.flatMap le32

/-- A buffer operand (R122). -/
def bufferBytes (buf : List Byte) : List Byte := count32 buf.length ++ buf

/-- The operand block of `COL.PUSH` (R122). -/
def frameBytes (f : RawFrame) : List Byte :=
  Machine.headerBytes f ++ f.payload ++ be16 f.crcRx ++ [if f.crcValid then 1#8 else 0#8]

/-- The command bytes of a well-formed instruction (R121, R122). A data-format row is no operation and has no
command bytes (R120). -/
def encode : Instr → List Byte
  | .syncPush b => [Opcode.syncPush.code, b]
  | .syncEnd => [Opcode.syncEnd.code]
  | .colPush f => Opcode.colPush.code :: frameBytes f
  | .colEnd => [Opcode.colEnd.code]
  | .enc10p6 v => Opcode.enc10p6.code :: le32 v
  | .dec10p6 c => Opcode.dec10p6.code :: le16 c
  | .enc4to5 v0 v1 v2 v3 => Opcode.enc4to5.code :: (le32 v0 ++ le32 v1 ++ le32 v2 ++ le32 v3)
  | .dec4to5 w0 w1 w2 w3 w4 =>
    Opcode.dec4to5.code :: (le16 w0 ++ le16 w1 ++ le16 w2 ++ le16 w3 ++ le16 w4)
  | .encSlzU a => Opcode.encSlzU.code :: arrayBytes a
  | .encSlzS a => Opcode.encSlzS.code :: arrayBytes a
  | .decSlzU buf n => Opcode.decSlzU.code :: (count32 n ++ bufferBytes buf)
  | .decSlzS buf n => Opcode.decSlzS.code :: (count32 n ++ bufferBytes buf)
  | .enc10p6Buf a => Opcode.enc10p6Buf.code :: arrayBytes a
  | .dec10p6Buf buf n => Opcode.dec10p6Buf.code :: (count32 n ++ bufferBytes buf)
  | .enc4to5Buf a => Opcode.enc4to5Buf.code :: arrayBytes a
  | .dec4to5Buf buf n => Opcode.dec4to5Buf.code :: (count32 n ++ bufferBytes buf)
  | .crc16 buf => Opcode.crc16.code :: bufferBytes buf
  | .crc16Step c b => Opcode.crc16Step.code :: (le16 c ++ [b])
  | .reset => [Opcode.reset.code]
  | .frameMarker => []
  | .frameW0 _ _ _ _ => []
  | .frameW1 _ _ => []
  | .frameW2 _ => []
  | .code10p6 _ _ _ => []
  | .code4to5W0 _ _ _ _ => []
  | .code4to5Wi _ _ _ => []
  | .slzHdrU _ _ => []
  | .slzHdrS _ _ _ => []
  | .slzWord _ => []

/-! ### The data formats as 16-bit words -/

/-- A 16-bit word read in a data format; only the marker has bits that can be wrong (R91). -/
def decodeFormat (fmt : DataFormat) (w : Word16) : Option Instr :=
  match fmt with
  | .frameMarker => if w = Config.syncMarker then some .frameMarker else none
  | .frameW0 =>
    some (.frameW0 (Machine.w0Version w) (Machine.w0Ptype w) (Machine.w0SecHdr w) (Machine.w0Appid w))
  | .frameW1 => some (.frameW1 (Machine.w1Gflags w) (Machine.w1Seq w))
  | .frameW2 => some (.frameW2 w)
  | .code10p6 => some (.code10p6 (w.extractLsb' 6 10) (w.extractLsb' 5 1) (w.extractLsb' 0 5))
  | .code4to5W0 =>
    some (.code4to5W0 (Machine.nibble w 0) (Machine.nibble w 1) (Machine.nibble w 2) (Machine.nibble w 3))
  | .code4to5Wi => some (.code4to5Wi (w.extractLsb' 15 1) (w.extractLsb' 14 1) (w.extractLsb' 0 14))
  | .slzHdrU => some (.slzHdrU (w.extractLsb' 8 8) (w.extractLsb' 0 8))
  | .slzHdrS => some (.slzHdrS (w.extractLsb' 15 1) (w.extractLsb' 8 7) (w.extractLsb' 0 8))
  | .slzWord => some (.slzWord w)

/-- The 16-bit word of a data-format row, with the format it is read in; none for an operation. -/
def encodeFormat : Instr → Option (DataFormat × Word16)
  | .frameMarker => some (.frameMarker, Config.syncMarker)
  | .frameW0 version ptype secHdr appid => some (.frameW0, Machine.packW0 version ptype secHdr appid)
  | .frameW1 gflags seq => some (.frameW1, Machine.packW1 gflags seq)
  | .frameW2 dlen => some (.frameW2, dlen)
  | .code10p6 mant sign lz => some (.code10p6, Machine.pack10p6 mant sign lz)
  | .code4to5W0 nib0 nib1 nib2 nib3 => some (.code4to5W0, Machine.packNibbles nib0 nib1 nib2 nib3)
  | .code4to5Wi sign inplace mant => some (.code4to5Wi, Machine.pack4to5 sign inplace mant)
  | .slzHdrU shift len => some (.slzHdrU, Machine.packRunHdr shift len)
  | .slzHdrS sign shift len => some (.slzHdrS, Machine.packRunHdr (Machine.shiftByte sign shift) len)
  | .slzWord w => some (.slzWord, w)
  | .syncPush _ => none
  | .syncEnd => none
  | .colPush _ => none
  | .colEnd => none
  | .enc10p6 _ => none
  | .dec10p6 _ => none
  | .enc4to5 _ _ _ _ => none
  | .dec4to5 _ _ _ _ _ => none
  | .encSlzU _ => none
  | .encSlzS _ => none
  | .decSlzU _ _ => none
  | .decSlzS _ _ => none
  | .enc10p6Buf _ => none
  | .dec10p6Buf _ _ => none
  | .enc4to5Buf _ => none
  | .dec4to5Buf _ _ => none
  | .crc16 _ => none
  | .crc16Step _ _ => none
  | .reset => none

/-! ### The words of spec/opcode_table.json -/

/-- `k` bytes of a number, least significant first: the table's numbering of a command's bytes. -/
def tableBytes : Nat → Nat → List Byte
  | 0, _ => []
  | k + 1, w => BitVec.ofNat 8 w :: tableBytes k (w / 256)

/-- The 4-byte count at index `i` of a command, a byte not given reading as 0. -/
def countAt (bs : List Byte) (i : Nat) : Nat :=
  (u32le (bs.getD i 0) (bs.getD (i + 1) 0) (bs.getD (i + 2) 0) (bs.getD (i + 3) 0)).toNat

/-- How many bytes the command that begins with `bs` has (R122), a byte not given reading as 0. A reserved
command byte stands alone. -/
def commandLength (bs : List Byte) : Nat :=
  match opcodeOf (bs.getD 0 0) with
  | some .syncPush => 2
  | some .colPush => 11 + (u16be (bs.getD 5 0) (bs.getD 6 0)).toNat
  | some .enc10p6 => 5
  | some .dec10p6 => 3
  | some .enc4to5 => 17
  | some .dec4to5 => 11
  | some .encSlzU | some .encSlzS | some .enc10p6Buf | some .enc4to5Buf => 5 + 4 * countAt bs 1
  | some .decSlzU | some .decSlzS | some .dec10p6Buf | some .dec4to5Buf => 9 + countAt bs 5
  | some .crc16 => 5 + countAt bs 1
  | some .crc16Step => 4
  | some .syncEnd | some .colEnd | some .reset | none => 1

/-- The bytes of the one command whose first `nbits` bits are `w` and whose further bits are 0. -/
def commandBytes (nbits w : Nat) : List Byte :=
  let lead := tableBytes (nbits / 8) w
  let len := commandLength lead
  lead.take len ++ List.replicate (len - lead.length) 0#8

/-- The row of spec/opcode_table.json that a word of the table stands for. A row of 8 bits is a command byte of
`CMD8`; a row of 16 bits is a data format, of which only `FRAME.MARKER` has all its bits fixed, so that a bare
word names no other one (log entry 12). -/
def decodeTableWord (nbits w : Nat) : Option Instr :=
  match decode (commandBytes nbits w) with
  | .ok (i, _) => some i
  | .error _ => if nbits = 16 then decodeFormat .frameMarker (BitVec.ofNat 16 w) else none

end Sys2Proof
end

