-- ==== Sys2Proof/Machine/Sync.lean ====
section
/-! DEFINITION. Unit `SYNC` (spec/41_sync.md): `SYNC.PUSH` (R150 to R157) and `SYNC.END` (R160). -/

namespace Sys2Proof.Machine

/-- The window holds the marker (R153): the seek ends, garbage is reported, the header is next. `seek_count` is at
least 2 here in every reachable state of a `GARBAGE_WIDTH` of at least 2; below that the difference is 0 (log
entry 14). -/
def markerFound (s : State) : State :=
  let s := reportGarbage (s.seekCount - 2) s
  { clearSeek s with hdrBuf := [], syncState := .readingHeader }

/-- A byte other than `FILLER` in `SEEKING_SYNC` (R152): shifted into the window and counted. -/
def seekByte (b : Byte) (s : State) : State :=
  let s := { s with window := shiftWindow s.window b, seekCount := satAdd s.cfg.garbageWidth s.seekCount 1 }
  if s.window = Config.syncMarker then markerFound s else s

/-- A byte equal to `FILLER` in `SEEKING_SYNC` (R151): skipped; under `FILLER_ENTERS_WINDOW` it enters the window
all the same and is still not counted (R10, D5, log entry 15). -/
def skipFiller (b : Byte) (s : State) : State :=
  if s.cfg.fillerEntersWindow then { s with window := shiftWindow s.window b } else s

/-- The header latches take the fields of the six header bytes (R95, R155). -/
def parseHeader (s : State) : State :=
  let h (k : Nat) : Byte := s.hdrBuf.getD k 0
  let f := headerFields (h 0) (h 1) (h 2) (h 3) (h 4) (h 5)
  { s with hVersion := f.version, hType := f.ptype, hSec := f.secHdr, hAppid := f.appid,
           hGflags := f.gflags, hSeq := f.seq, hDlen := f.dlen }

/-- A byte in `READING_HEADER` (R154, R155). -/
def headerByte (b : Byte) (s : State) : State :=
  let s := { s with hdrBuf := s.hdrBuf ++ [b] }
  if s.hdrBuf.length = Config.headerLen then
    { parseHeader s with bodyBuf := [], syncState := .readingBody }
  else s

/-- `body_need` (R28): payload and CRC bytes of the current frame. -/
def bodyNeed (s : State) : Nat := s.hDlen.toNat + 1 + Config.crcLen

/-- The RawFrame of a complete body (R156, R30): payload, received CRC, `crc_valid`. -/
def receivedFrame (s : State) : RawFrame :=
  let n := bodyNeed s
  let payload := s.bodyBuf.take (n - 2)
  let crcRx := u16be (s.bodyBuf.getD (n - 2) 0) (s.bodyBuf.getD (n - 1) 0)
  { version := s.hVersion, ptype := s.hType, secHdr := s.hSec, appid := s.hAppid, gflags := s.hGflags,
    seq := s.hSeq, dlen := s.hDlen, payload := payload, crcRx := crcRx,
    crcValid := crcValidFlag s.cfg s.hdrBuf payload crcRx }

/-- `CrcMismatch(appid, seq)` is raised for a frame whose `crc_valid` is 0 (R145, R303). -/
def reportMismatch (f : RawFrame) (s : State) : State :=
  if f.crcValid then s else raiseSync (.crcMismatch f.appid f.seq) s

/-- Frame completion (R156): the frame is emitted, then a mismatch is raised (R316), and the search starts clean. -/
def completeFrame (s : State) : State :=
  let f := receivedFrame s
  { clearSeek (reportMismatch f (emitFrame f s)) with syncState := .seekingSync }

/-- A byte in `READING_BODY` (R156). -/
def bodyByte (b : Byte) (s : State) : State :=
  let s := { s with bodyBuf := s.bodyBuf ++ [b] }
  if s.bodyBuf.length = bodyNeed s then completeFrame s else s

/-- `SYNC.PUSH b` (R150). -/
def execSyncPush (b : Byte) (s : State) : Out :=
  match s.syncState with
  | .done => .refused .syncDone
  | .seekingSync => .next (if b = Config.filler then skipFiller b s else seekByte b s)
  | .readingHeader => .next (headerByte b s)
  | .readingBody => .next (bodyByte b s)

/-- Trailing garbage is reported when the stream ends in `SEEKING_SYNC` (R160). -/
def endSeek (s : State) : State := { reportGarbage s.seekCount s with seekCount := 0 }

/-- A frame in progress when the stream ends is dropped and flagged (R160, R29). -/
def endPartial (s : State) : State := { s with partialAtEnd := s.partialAtEnd || endsInsideFrame s.syncState }

/-- What every `SYNC.END` leaves (R160). -/
def enterDone (s : State) : State :=
  { s with window := 0x0000#16, hdrBuf := [], bodyBuf := [], syncState := .done }

/-- `SYNC.END` (R160). -/
def execSyncEnd (s : State) : Out :=
  match s.syncState with
  | .done => .refused .syncDone
  | .seekingSync => .next (enterDone (endSeek s))
  | .readingHeader => .next (enterDone (endPartial s))
  | .readingBody => .next (enterDone (endPartial s))

end Sys2Proof.Machine
end

