-- ==== Sys2Proof/Machine/Dispatch.lean ====
section
/-! DEFINITION. `exec`: one arm per constructor of `Instr`, each one direct call of its meaning. -/

namespace Sys2Proof.Machine

def exec (i : Instr) (s : State) : Host.Outcome State Fault Refusal :=
  match i with
  | .syncPush b => Sys2Proof.Machine.execSyncPush b s
  | .syncEnd => Sys2Proof.Machine.execSyncEnd s
  | .colPush f => Sys2Proof.Machine.execColPush f s
  | .colEnd => Sys2Proof.Machine.execColEnd s
  | .enc10p6 v => Sys2Proof.Machine.execEnc10p6 v s
  | .dec10p6 c => Sys2Proof.Machine.execDec10p6 c s
  | .enc4to5 v0 v1 v2 v3 => Sys2Proof.Machine.execEnc4to5 v0 v1 v2 v3 s
  | .dec4to5 w0 w1 w2 w3 w4 => Sys2Proof.Machine.execDec4to5 w0 w1 w2 w3 w4 s
  | .encSlzU a => Sys2Proof.Machine.execEncSlzU a s
  | .encSlzS a => Sys2Proof.Machine.execEncSlzS a s
  | .decSlzU buf n => Sys2Proof.Machine.execDecSlzU buf n s
  | .decSlzS buf n => Sys2Proof.Machine.execDecSlzS buf n s
  | .enc10p6Buf a => Sys2Proof.Machine.execEnc10p6Buf a s
  | .dec10p6Buf buf n => Sys2Proof.Machine.execDec10p6Buf buf n s
  | .enc4to5Buf a => Sys2Proof.Machine.execEnc4to5Buf a s
  | .dec4to5Buf buf n => Sys2Proof.Machine.execDec4to5Buf buf n s
  | .crc16 buf => Sys2Proof.Machine.execCrc16 buf s
  | .crc16Step c b => Sys2Proof.Machine.execCrc16Step c b s
  | .reset => Sys2Proof.Machine.execReset s
  | .frameMarker => Sys2Proof.Machine.execFrameMarker s
  | .frameW0 version ptype secHdr appid => Sys2Proof.Machine.execFrameW0 version ptype secHdr appid s
  | .frameW1 gflags seq => Sys2Proof.Machine.execFrameW1 gflags seq s
  | .frameW2 dlen => Sys2Proof.Machine.execFrameW2 dlen s
  | .code10p6 mant sign lz => Sys2Proof.Machine.execCode10p6 mant sign lz s
  | .code4to5W0 nib0 nib1 nib2 nib3 => Sys2Proof.Machine.execCode4to5W0 nib0 nib1 nib2 nib3 s
  | .code4to5Wi sign inplace mant => Sys2Proof.Machine.execCode4to5Wi sign inplace mant s
  | .slzHdrU shift len => Sys2Proof.Machine.execSlzHdrU shift len s
  | .slzHdrS sign shift len => Sys2Proof.Machine.execSlzHdrS sign shift len s
  | .slzWord w => Sys2Proof.Machine.execSlzWord w s

end Sys2Proof.Machine
end

