-- ==== Sys2Proof/Machine/Fetch.lean ====
section
/-! DEFINITION. Which operation is next: one the coupling issues (spec/20_memory.md R75) or the next command the
environment has presented (spec/30_encoding.md R121, spec/20_memory.md R79). -/

namespace Sys2Proof.Machine

/-- The operation the coupling issues (R75), if it is active and one is due: a `COL.PUSH` of the next RawFrame of
`frame_out` not yet delivered, else the `COL.END` that follows `SYNC.END`. A finished `COL` takes none (R188,
log entry 5). -/
def coupledOp (s : State) : Option Instr :=
  if s.cfg.coupled && !s.colDone then
    match s.frameOut[s.delivered]? with
    | some f => some (.colPush f)
    | none => if s.syncState = .done then some .colEnd else none
  else none

/-- The delivery counter after the coupling has issued `i` (R75: each frame exactly once). -/
def noteDelivery (i : Instr) (s : State) : State :=
  match i with
  | .colPush _ => { s with delivered := s.delivered + 1 }
  | _ => s

/-- What a step does next. -/
inductive Fetched where
  /-- run `i` in state `s` -/
  | run (i : Instr) (s : State)
  /-- nothing is presented: nothing happens (log entry 1) -/
  | idle
  /-- the bytes presented are no command -/
  | refuse (r : Refusal)
deriving DecidableEq, Repr

/-- The refusal a decoder's rejection stands for (R123, D40, U4); no command presented is none. -/
def refusalOf : DecodeError → Option Refusal
  | .noCommand => none
  | .reserved code => some (.reservedCommand code)
  | .incomplete op => some (.incompleteCommand op)
  | .badCrcValid b => some (.badCrcValid b)

/-- The next command of the environment, taken off `cmdIn`. -/
def fetchCommand (s : State) : Fetched :=
  match decode s.cmdIn with
  | .ok (i, rest) => .run i { s with cmdIn := rest }
  | .error e =>
    match refusalOf e with
    | some r => .refuse r
    | none => .idle

/-- The next operation: the coupling's as soon as one is due (log entry 4), else the environment's. -/
def fetch (s : State) : Fetched :=
  match coupledOp s with
  | some i => .run i (noteDelivery i s)
  | none => fetchCommand s

/-- `s` with the coupling inactive if an operation of it is due, so that the environment's command is next. -/
def holdCoupling (s : State) : State :=
  match coupledOp s with
  | some _ => { s with cfg := { s.cfg with coupled := false } }
  | none => s

/-- `s` with one command presented as the next operation: its first `nbits` bits are `w`, its further bits 0 (log
entry 1). -/
def present (s : State) (nbits w : Nat) : State := { holdCoupling s with cmdIn := commandBytes nbits w }

end Sys2Proof.Machine
end

