-- ==== Sys2Proof/Machine/Step.lean ====
section
/-! DEFINITION. One step of the machine: one whole operation (spec/20_memory.md R73). -/

namespace Sys2Proof.Machine

/-- One step: the next operation, of the coupling (R75) or of the environment (R79), is executed; with none presented the
machine stays as it is. -/
def step (s : State) : Host.Outcome State Fault Refusal :=
  match fetch s with
  | .run i s' => exec i s'
  | .idle => .next s
  | .refuse r => .refused r

/-- The state with the instruction whose bits are `w` presented as the next command (spec/30_encoding.md R121). -/
def State.withFetchWord (s : State) (nbits w : Nat) : State := present s nbits w

end Sys2Proof.Machine
end

