-- ==== Sys2Proof/Machine/Run.lean ====
section
/-! DEFINITION. Sequences of operations (spec/20_memory.md R76) and the pseudo-operations `SYNC.FEED` and `SYNC.RUN`
(spec/30_encoding.md R127). -/

namespace Sys2Proof.Machine

/-- Operations issued one after another (R76), stopping where one is refused. -/
def execAll : List Instr → State → Out
  | [], s => .next s
  | i :: is, s =>
    match exec i s with
    | .next s' => execAll is s'
    | .fault r => .fault r
    | .refused r => .refused r

/-- `SYNC.FEED [b0, ..., bk]` (R127). -/
def syncFeed (bytes : List Byte) : List Instr := bytes.map .syncPush

/-- What the environment issues for `SYNC.RUN [b0, ..., bk]` (R127); the coupling of R75 issues the rest. -/
def syncRun (bytes : List Byte) : List Instr := .reset :: (syncFeed bytes ++ [.syncEnd])

end Sys2Proof.Machine
end

