-- ==== Sys2Proof/Safety.lean ====
section
/-! DEFINITION. The terms claims about the machine use: its invariant, the canonical codes of spec/30_encoding.md
(R101, R104), the greedy cutting of spec/45_codec_sharedlz.md R245, the decoder of R250 written index by
index, and the clean streams of spec/41_sync.md R162. -/

namespace Sys2Proof.Machine

/-! ### The units -/

/-- The three units (R20, R311). -/
inductive HwUnit where
  | sync
  | col
  | codec
deriving DecidableEq, Repr

/-- The unit that performs an operation (R120); `RESET` is of all, a data format of none. -/
def unitOf : Instr → Option HwUnit
  | .syncPush _ => some .sync
  | .syncEnd => some .sync
  | .colPush _ => some .col
  | .colEnd => some .col
  | .enc10p6 _ => some .codec
  | .dec10p6 _ => some .codec
  | .enc4to5 _ _ _ _ => some .codec
  | .dec4to5 _ _ _ _ _ => some .codec
  | .encSlzU _ => some .codec
  | .encSlzS _ => some .codec
  | .decSlzU _ _ => some .codec
  | .decSlzS _ _ => some .codec
  | .enc10p6Buf _ => some .codec
  | .dec10p6Buf _ _ => some .codec
  | .enc4to5Buf _ => some .codec
  | .dec4to5Buf _ _ => some .codec
  | .crc16 _ => some .codec
  | .crc16Step _ _ => some .codec
  | .reset => none
  | .frameMarker => none
  | .frameW0 _ _ _ _ => none
  | .frameW1 _ _ => none
  | .frameW2 _ => none
  | .code10p6 _ _ _ => none
  | .code4to5W0 _ _ _ _ => none
  | .code4to5Wi _ _ _ => none
  | .slzHdrU _ _ => none
  | .slzHdrS _ _ _ => none
  | .slzWord _ => none

/-! ### The invariant -/

/-- What holds of `SYNC` in every reachable state. -/
structure SyncInv (s : State) : Prop where
  /-- capacity of `hdr_buf` (R26) -/
  hdr_cap : s.hdrBuf.length ≤ Config.headerLen
  /-- capacity of `body_buf` (R28) for a `MAX_PAYLOAD` of at least its default 65536 (log entry 21) -/
  body_cap : s.bodyBuf.length ≤ max s.cfg.maxPayload (2 ^ 16) + Config.crcLen
  /-- `seek_count` has `GARBAGE_WIDTH` bits (R24, U10) -/
  seek_width : s.seekCount < 2 ^ s.cfg.garbageWidth
  /-- `garbage_count` has `GARBAGE_WIDTH` bits (R25) -/
  garbage_width : s.garbageCount < 2 ^ s.cfg.garbageWidth
  /-- the fill level of `hdr_buf` while the header is read (R22) -/
  reading_header : s.syncState = .readingHeader → s.hdrBuf.length < Config.headerLen
  /-- the fill levels while the body is read, and the latches hold the parsed header (R22, R26, R27) -/
  reading_body : s.syncState = .readingBody →
    s.hdrBuf.length = Config.headerLen ∧ s.bodyBuf.length < bodyNeed s ∧ parseHeader s = s
  /-- the search starts clean (R23, R24, R360) -/
  not_seeking : s.syncState ≠ .seekingSync → s.window = 0 ∧ s.seekCount = 0
  /-- a half-seen marker has been counted (R153), where the counter has a bit -/
  half_marker : s.window.extractLsb' 0 8 = 0xEC#8 → 0 < s.cfg.garbageWidth → s.seekCount ≠ 0
  /-- every emitted frame has its declared length (R30) and its `crc_valid` is right (R145) -/
  frames : ∀ f ∈ s.frameOut,
    f.sized = true ∧ f.crcValid = crcValidFlag s.cfg (headerBytes f) f.payload f.crcRx
  /-- `partial_at_end` is set by `SYNC.END` only (R29) -/
  partial_done : s.partialAtEnd = true → s.syncState = .done

/-- What holds of `COL` in every reachable state. -/
structure ColInv (s : State) : Prop where
  /-- `COL.END` empties the accumulator (R188) -/
  done_empty : s.colDone = true → s.acc = []
  /-- `single_fragment` is 1 exactly when no run is in progress (R32, R35) -/
  single_iff : s.colDone = false → (s.singleFragment = true ↔ s.acc = [])
  /-- `residual_at_end` is set by `COL.END` only (R37) -/
  residual_done : s.residualAtEnd = true → s.colDone = true
  /-- capacity of `acc` (R32) -/
  acc_cap : ∀ m, s.cfg.accMax = some m → s.acc.length ≤ m
  /-- every packet holds the payload of at least one frame (R32, R36) -/
  packets : ∀ p ∈ s.packetOut, p.payload ≠ []

/-- The invariant of the machine: of both units, and no frame is delivered before it is emitted (R75). -/
structure Inv (s : State) : Prop where
  sync : SyncInv s
  col : ColInv s
  delivered : s.delivered ≤ s.frameOut.length

/-! ### Clean streams (R162) -/

/-- The bytes of a gap that are not filler (R151). -/
def garbageOf (gap : List Byte) : List Byte := gap.filter fun b => !(b == Config.filler)

/-- A gap of R162: filler removed, it nowhere holds the marker. -/
def cleanGap (gap : List Byte) : Prop := ¬ [0xEC#8, 0xA0#8] <:+: garbageOf gap

/-- The RawFrame `SYNC` emits for `wireFrame` of `f` (R162): the declared length and CRC are the payload's. -/
def emittedFrame (xorout : Word16) (f : RawFrame) : RawFrame :=
  let g := { f with dlen := BitVec.ofNat 16 (f.payload.length - 1) }
  { g with crcRx := crc16 xorout (headerBytes g ++ f.payload), crcValid := true }

/-- The `SyncLoss` event of a gap, if it holds garbage (R162, R302). -/
def gapEvents (gap : List Byte) : List SyncEvent :=
  if garbageOf gap = [] then [] else [.syncLoss (garbageOf gap).length]

/-! ### Canonical codes -/

/-- The canonical codes of codec (a) (R101). -/
def canonical10p6 (c : Word16) : Prop :=
  c = 0 ∨ (c.getLsbD 15 = true ∧
    ((c.extractLsb' 0 5).toNat = 0 → c = 0x8020#16) ∧
    (23 ≤ (c.extractLsb' 0 5).toNat →
      ∀ j, 6 ≤ j → j ≤ (c.extractLsb' 0 5).toNat - 17 → c.getLsbD j = false))

/-- The shift a lane of codec (b) declares (R109). -/
def declaredShift (nib : BitVec 4) (w : Word16) : Nat := nib.toNat + 16 * (w.getLsbD 14).toNat

/-- The canonical element codes of codec (b) (R104). -/
def canonicalLane (nib : BitVec 4) (w : Word16) : Prop :=
  declaredShift nib w ≤ 18 ∧
  (1 ≤ declaredShift nib w → w.getLsbD 13 = true) ∧
  (w.extractLsb' 0 14 = 0 → w.getLsbD 15 = false ∧ declaredShift nib w = 0) ∧
  (declaredShift nib w = 18 → w.getLsbD 15 = true ∧ w.extractLsb' 0 14 = 0x2000#14)

/-! ### Codec (c) -/

/-- The elements of a run. -/
def runElems (r : SlzRun) : List SlzElem := r.mags.map fun m => { mag := m, neg := r.neg }

/-- The significant bits of a magnitude above 15: `rawcls` of R241 as arithmetic. -/
def bitsAbove15 (a : Word32) : Nat := a.toNat.size - 15

/-- The three conditions of R245 for an element to join a run of `n` elements, the class compared as arithmetic: at
most 16 with `SLZ_COLLAPSE_BEFORE_COMPARE`, up to 17 without (R249). -/
def mayJoin (collapse : Bool) (n : Nat) (r : SlzRun) (e : SlzElem) : Prop :=
  let c : Int := if collapse then min (bitsAbove15 e.mag) 16 else bitsAbove15 e.mag
  n < 255 ∧ (c - r.shift).natAbs ≤ 1 ∧ e.neg = r.neg

/-- A run that R245 allows: its shift is the collapsed class of its first element (R249), and each later element could
join the run as it stood. -/
def wellCut (collapse : Bool) (r : SlzRun) : Prop :=
  ∃ m ms, r.mags = m :: ms ∧ r.shift = min (bitsAbove15 m) 16 ∧
    ∀ k (h : k < ms.length), mayJoin collapse (k + 1) r { mag := ms[k], neg := r.neg }

/-- Runs cut as late as R245 allows: the first element of each run could not join the run before it. -/
def cutGreedily (collapse : Bool) : List SlzRun → Prop
  | r :: r' :: rest =>
    (∀ e, (runElems r').head? = some e → ¬ mayJoin collapse r.mags.length r e) ∧ cutGreedily collapse (r' :: rest)
  | _ => True

/-- The sign and shift of a run's shift byte as arithmetic (R250, R251): bit 7 and bits 6:0 in the signed variant. -/
def runSignShift (signed : Bool) (h : Byte) : Bool × Nat :=
  if signed then (decide (h.toNat / 128 = 1), h.toNat % 128) else (false, h.toNat)

/-- The element of two stream bytes as arithmetic (R250, R251, R110): the word times `2^S`, negated in a negative run,
modulo `2^32`. -/
def runElement (neg : Bool) (shift : Nat) (b0 b1 : Byte) : Word32 :=
  let a : Nat := (b0.toNat + 256 * b1.toNat) * 2 ^ shift
  BitVec.ofInt 32 (if neg then -(a : Int) else a)

/-- The inner loop of R250, index by index: `m` words of a run are read from index `p`. -/
def readRunWords (buf : List Byte) (neg : Bool) (shift : Nat) :
    Nat → Nat → List Word32 → Except Truncation (List Word32 × Nat)
  | 0, p, out => .ok (out, p)
  | m + 1, p, out =>
    if p + 2 > buf.length then .error { needed := p + 2, avail := buf.length }
    else
      readRunWords buf neg shift m (p + 2)
        (out ++ [runElement neg shift (buf.getD p 0) (buf.getD (p + 1) 0)])

/-- The outer loop of R250, index by index, for at most `fuel` runs. -/
def readRuns (signed : Bool) (buf : List Byte) (n : Nat) :
    Nat → Nat → List Word32 → Except Truncation (List Word32 × Nat)
  | 0, p, _ => .error { needed := p + 2, avail := buf.length }
  | fuel + 1, p, out =>
    if out.length < n then
      if p + 2 > buf.length then .error { needed := p + 2, avail := buf.length }
      else
        let h := runSignShift signed (buf.getD p 0)
        let len := (buf.getD (p + 1) 0).toNat
        match readRunWords buf h.1 h.2 (min len (n - out.length)) (p + 2) out with
        | .ok (out', p') => readRuns signed buf n fuel p' out'
        | .error t => .error t
    else .ok (out, p)

end Sys2Proof.Machine
end

