-- ==== Sys2Proof/Certificates/Slice0/Obligations.lean ====
section
/-! DEFINITION. The statements for the provers, from the numbered rules of spec/ file by file. Values are given by
arithmetic on naturals and integers, not by the model's own bit operations, wherever the rule states a value;
a next state is written out whole, so that each equation is also its frame. -/

open Sys2Proof Sys2Proof.Machine

/-! ### The command format (spec/30_encoding.md) -/

/-- R121, R122: the decoder reads back what the encoder wrote, whatever follows, for every operation and every operand
the operand blocks admit. -/
def Obligations.DecodeOfEncodeIsTheInstruction : Prop :=
  ∀ (i : Instr) (rest : List Byte), i.wellFormed = true → decode (encode i ++ rest) = .ok (i, rest)

/-- R121, R122: what the decoder accepts is the encoding of a well-formed instruction, so no bit of a command is
ignored and no command has two readings. -/
def Obligations.DecodedBytesAreTheEncoding : Prop :=
  ∀ (bs rest : List Byte) (i : Instr),
    decode bs = .ok (i, rest) → i.wellFormed = true ∧ bs = encode i ++ rest

/-- R91 to R94, R100 to R105: the word of each data format and its fields determine each other. -/
def Obligations.DataFormatWordsRoundTrip : Prop :=
  (∀ (i : Instr) (fmt : DataFormat) (w : Word16), encodeFormat i = some (fmt, w) → decodeFormat fmt w = some i) ∧
  (∀ (fmt : DataFormat) (w : Word16) (i : Instr), decodeFormat fmt w = some i → encodeFormat i = some (fmt, w))

/-- R120, R122, with command bytes that spec/95_test_vectors.md writes out (P1, P4, K1): sanity only. -/
def Obligations.WrittenOutCommandsDecode : Prop :=
  decode [0x01#8, 0xA5#8] = .ok (.syncPush 0xA5#8, []) ∧
  decode [0x02#8] = .ok (.syncEnd, []) ∧
  decode [0x20#8, 0xC0#8, 0x1D#8, 0xFE#8, 0xFF#8] = .ok (.enc10p6 (BitVec.ofInt 32 (-123456)), []) ∧
  decode [0x21#8, 0x2F#8, 0xF1#8] = .ok (.dec10p6 0xF12F#16, []) ∧
  decode [0x31#8, 0xFF#8, 0xFF#8, 0x01#8] = .ok (.crc16Step 0xFFFF#16 0x01#8, []) ∧
  decode [0x11#8, 0x00#8, 0x07#8, 0x80#8, 0x0B#8, 0x00#8, 0x00#8, 0xB1#8, 0x00#8, 0x00#8, 0x01#8] =
    .ok (.colPush ⟨0, 0, 0, 7, 2, 11, 0, [0xB1#8], 0, true⟩, [])

/-- R123: every command byte that is not one of the 19 codes of R120 is refused, whatever follows it. -/
def Obligations.ReservedCommandByteRefused : Prop :=
  ∀ (s : State) (b : Byte) (rest : List Byte),
    coupledOp s = none → s.cmdIn = b :: rest →
    b.toNat ∉ [0x01, 0x02, 0x11, 0x12, 0x20, 0x21, 0x22, 0x23, 0x24, 0x25, 0x26, 0x27, 0x28, 0x29, 0x2A, 0x2B,
      0x30, 0x31, 0xFF] →
    step s = .refused (.reservedCommand b)

/-- R122, D40: a command cut short anywhere after its command byte is no command and is refused. That the step refuses
it rather than waits is the model's choice (log entry 3). -/
def Obligations.CommandCutShortIsRefused : Prop :=
  ∀ (i : Instr) (k : Nat) (s : State), i.wellFormed = true → 0 < k → k < (encode i).length →
    coupledOp s = none → s.cmdIn = (encode i).take k → ∃ op, step s = .refused (.incompleteCommand op)

/-- R79, R121: with nothing due from the coupling, a step takes the next command off `cmdIn` and runs it; with no
command presented nothing happens (the model's choice, log entry 1). -/
def Obligations.StepRunsTheDecodedCommand : Prop :=
  (∀ (s : State) (i : Instr) (rest : List Byte),
    coupledOp s = none → decode s.cmdIn = .ok (i, rest) → step s = exec i { s with cmdIn := rest }) ∧
  (∀ s : State, coupledOp s = none → s.cmdIn = [] → step s = .next s)

/-- R75: the coupling pushes every frame of `frame_out` that is not yet delivered into `COL`, once each and in order,
and after `SYNC.END` and the last frame it issues one `COL.END`. That its operations come before the next command is
the model's choice (log entry 4). -/
def Obligations.CouplingDeliversFramesInOrder : Prop :=
  ∀ s : State, s.cfg.coupled = true → s.colDone = false →
    Host.Core.run Sys2Proof.core (s.frameOut.length - s.delivered) s =
      execAll ((s.frameOut.drop s.delivered).map .colPush)
        { s with delivered := max s.delivered s.frameOut.length } ∧
    (s.frameOut.length ≤ s.delivered → s.syncState = .done →
      step s = .next { s with residualAtEnd := s.residualAtEnd || decide (s.acc ≠ []), acc := [], colDone := true })

/-! ### Unit SYNC (spec/41_sync.md) -/

/-- R151: filler in `SEEKING_SYNC` changes nothing. -/
def Obligations.FillerIsSilentlySkipped : Prop :=
  ∀ s : State, s.syncState = .seekingSync → s.cfg.fillerEntersWindow = false →
    exec (.syncPush 0xA5#8) s = .next s

/-- The other reading of R151, parameter `FILLER_ENTERS_WINDOW` of R10: filler enters the window and is still not
counted. What the parameter does to the window is the model's reading (log entry 15). -/
def Obligations.FillerMayEnterTheWindow : Prop :=
  ∀ s : State, s.syncState = .seekingSync → s.cfg.fillerEntersWindow = true →
    exec (.syncPush 0xA5#8) s = .next { s with window := BitVec.ofNat 16 (s.window.toNat * 256 + 0xA5) }

/-- R152, R23, R24: any other byte is shifted into the window and counted; without a marker nothing else happens. -/
def Obligations.SeekByteIsShiftedAndCounted : Prop :=
  ∀ (s : State) (b : Byte), s.syncState = .seekingSync → b ≠ 0xA5#8 →
    BitVec.ofNat 16 (s.window.toNat * 256 + b.toNat) ≠ 0xECA0#16 →
    exec (.syncPush b) s =
      .next { s with window := BitVec.ofNat 16 (s.window.toNat * 256 + b.toNat)
                     seekCount := min (s.seekCount + 1) (2 ^ s.cfg.garbageWidth - 1) }

/-- R153: when the window holds the marker the seek ends: `seek_count` is at least 2 (for a `GARBAGE_WIDTH` that can hold
2), the garbage before the marker is counted and reported, and the header is next. -/
def Obligations.MarkerEndsTheSeek : Prop :=
  ∀ (s : State) (b : Byte), Inv s → s.syncState = .seekingSync → b ≠ 0xA5#8 →
    BitVec.ofNat 16 (s.window.toNat * 256 + b.toNat) = 0xECA0#16 →
    let n := min (s.seekCount + 1) (2 ^ s.cfg.garbageWidth - 1)
    (2 ≤ s.cfg.garbageWidth → 2 ≤ n) ∧
    exec (.syncPush b) s =
      .next { s with garbageCount := min (s.garbageCount + (n - 2)) (2 ^ s.cfg.garbageWidth - 1)
                     syncDiag := s.syncDiag ++ (if n ≤ 2 then [] else [.syncLoss (n - 2)])
                     window := 0, seekCount := 0, hdrBuf := [], syncState := .readingHeader }

/-- R154, R155, R95: every byte is stored in `READING_HEADER`; the sixth parses the header, every field of it. -/
def Obligations.HeaderBytesAreStoredAndParsed : Prop :=
  (∀ (s : State) (b : Byte), s.syncState = .readingHeader → s.hdrBuf.length + 1 ≠ 6 →
    exec (.syncPush b) s = .next { s with hdrBuf := s.hdrBuf ++ [b] }) ∧
  (∀ (s : State) (b0 b1 b2 b3 b4 b5 : Byte), s.syncState = .readingHeader → s.hdrBuf = [b0, b1, b2, b3, b4] →
    exec (.syncPush b5) s =
      .next { s with hdrBuf := [b0, b1, b2, b3, b4, b5]
                     hVersion := BitVec.ofNat 3 (b0.toNat / 32)
                     hType := BitVec.ofNat 1 (b0.toNat / 16)
                     hSec := BitVec.ofNat 1 (b0.toNat / 8)
                     hAppid := BitVec.ofNat 11 (b0.toNat % 8 * 256 + b1.toNat)
                     hGflags := BitVec.ofNat 2 (b2.toNat / 64)
                     hSeq := BitVec.ofNat 14 (b2.toNat % 64 * 256 + b3.toNat)
                     hDlen := BitVec.ofNat 16 (b4.toNat * 256 + b5.toNat)
                     bodyBuf := [], syncState := .readingBody })

/-- R156, R145, R303: every byte is stored in `READING_BODY`; the last one emits the frame, sets `crc_valid`, raises
`CrcMismatch` if it is 0, and the search starts clean. -/
def Obligations.BodyBytesCompleteTheFrame : Prop :=
  (∀ (s : State) (b : Byte), s.syncState = .readingBody → s.bodyBuf.length + 1 ≠ s.hDlen.toNat + 3 →
    exec (.syncPush b) s = .next { s with bodyBuf := s.bodyBuf ++ [b] }) ∧
  (∀ (s : State) (payload : List Byte) (c1 c0 : Byte), s.syncState = .readingBody →
    payload.length = s.hDlen.toNat + 1 → s.bodyBuf = payload ++ [c1] →
    let crcRx := BitVec.ofNat 16 (c1.toNat * 256 + c0.toNat)
    let ok := decide (crc16 s.cfg.crcXorout (s.hdrBuf ++ payload) = crcRx)
    exec (.syncPush c0) s =
      .next { s with bodyBuf := payload ++ [c1, c0]
                     frameOut := s.frameOut ++
                       [{ version := s.hVersion, ptype := s.hType, secHdr := s.hSec, appid := s.hAppid,
                          gflags := s.hGflags, seq := s.hSeq, dlen := s.hDlen, payload := payload,
                          crcRx := crcRx, crcValid := ok }]
                     syncDiag := s.syncDiag ++ (if ok then [] else [.crcMismatch s.hAppid s.hSeq])
                     window := 0, seekCount := 0, syncState := .seekingSync })

/-- R160, R302: `SYNC.END` reports trailing garbage, drops and flags a partial frame, and the unit is done. -/
def Obligations.SyncEndFinishesTheStream : Prop :=
  ∀ s : State,
    (s.syncState = .seekingSync → exec .syncEnd s =
      .next { s with garbageCount := min (s.garbageCount + s.seekCount) (2 ^ s.cfg.garbageWidth - 1)
                     syncDiag := s.syncDiag ++ (if s.seekCount = 0 then [] else [.syncLoss s.seekCount])
                     seekCount := 0, window := 0, hdrBuf := [], bodyBuf := [], syncState := .done }) ∧
    (s.syncState = .readingHeader ∨ s.syncState = .readingBody → exec .syncEnd s =
      .next { s with partialAtEnd := true, window := 0, hdrBuf := [], bodyBuf := [], syncState := .done }) ∧
    (s.syncState = .done → exec .syncEnd s = .refused .syncDone)

/-- R157, and the converse: `SYNC.PUSH` is refused in `DONE` and runs in every other state, on every byte. -/
def Obligations.SyncPushRefusedExactlyInDone : Prop :=
  ∀ (s : State) (b : Byte),
    (s.syncState = .done → exec (.syncPush b) s = .refused .syncDone) ∧
    (s.syncState ≠ .done → ∃ t, exec (.syncPush b) s = .next t)

/-- R21: the codes of `sync_state`, its reset value, the cycle `SYNC.PUSH` moves it through, and who writes it: `DONE`
is entered by `SYNC.END` alone and left by `RESET` alone. -/
def Obligations.SyncStateIsWrittenAsTheRuleSays : Prop :=
  (SyncState.code .seekingSync = 0 ∧ SyncState.code .readingHeader = 1 ∧ SyncState.code .readingBody = 2 ∧
    SyncState.code .done = 3 ∧ State.reset.syncState = .seekingSync) ∧
  ∀ (i : Instr) (s t : State), exec i s = .next t →
    (t.syncState ≠ s.syncState → (∃ b, i = .syncPush b) ∨ i = .syncEnd ∨ i = .reset) ∧
    (s.syncState ≠ .done → t.syncState = .done → i = .syncEnd) ∧
    (s.syncState = .done → t.syncState ≠ .done → i = .reset) ∧
    ((∃ b, i = .syncPush b) → t.syncState = s.syncState ∨
      (s.syncState = .seekingSync ∧ t.syncState = .readingHeader) ∨
      (s.syncState = .readingHeader ∧ t.syncState = .readingBody) ∨
      (s.syncState = .readingBody ∧ t.syncState = .seekingSync))

/-- R162: a stream of valid frames among clean gaps yields exactly those frames, every `crc_valid` 1, one `SyncLoss` for
each gap that holds garbage and the right total, for any `CRC_XOROUT` and `GARBAGE_WIDTH`; for streams
shorter than the counters reach (R25). -/
def Obligations.CleanStreamIsRecovered : Prop :=
  ∀ (cfg : Config) (segs : List (List Byte × RawFrame)) (last : List Byte), cfg.fillerEntersWindow = false →
    (∀ p ∈ segs, cleanGap p.1 ∧ 1 ≤ p.2.payload.length ∧ p.2.payload.length ≤ 65536) → cleanGap last →
    (segs.flatMap (fun p => p.1 ++ wireFrame cfg.crcXorout p.2) ++ last).length < 2 ^ cfg.garbageWidth →
    ∃ t, execAll
        (syncFeed (segs.flatMap (fun p => p.1 ++ wireFrame cfg.crcXorout p.2) ++ last) ++ [.syncEnd])
        { State.reset with cfg := cfg } = .next t ∧
      t.frameOut = segs.map (fun p => emittedFrame cfg.crcXorout p.2) ∧
      t.syncDiag = segs.flatMap (fun p => gapEvents p.1) ++ gapEvents last ∧
      t.garbageCount = (garbageOf (segs.flatMap Prod.fst ++ last)).length ∧
      t.partialAtEnd = false ∧ t.syncState = .done

/-! ### Unit COL (spec/42_collator.md) -/

/-- R180 to R185: a frame opens or continues the run, is appended swapped, and a terminal one emits the packet. -/
def Obligations.CollatorTakesAFrame : Prop :=
  ∀ (s : State) (f : RawFrame), f.payload.length = f.dlen.toNat + 1 → f.payload.length ≤ s.cfg.maxPayload →
    (∀ m, s.cfg.accMax = some m → s.acc.length + f.payload.length ≤ m) →
    let start := if s.acc = [] then f.seq else s.startSeq
    let drift : List ColEvent :=
      if s.acc = [] ∨ f.appid = s.lastAppid then [] else [.applicationIdDrift s.lastAppid f.appid f.seq]
    (s.colDone = true → exec (.colPush f) s = .refused .colDone) ∧
    (s.colDone = false → f.gflags ≠ 3 → exec (.colPush f) s =
      .next { s with startSeq := start, colDiag := s.colDiag ++ drift, lastAppid := f.appid,
                     acc := s.acc ++ swap16 f.payload, singleFragment := false }) ∧
    (s.colDone = false → f.gflags = 3 → exec (.colPush f) s =
      .next { s with startSeq := start, colDiag := s.colDiag ++ drift, lastAppid := f.appid,
                     packetOut := s.packetOut ++
                       [{ startSeq := start, endSeq := f.seq, appid := f.appid,
                          payload := s.acc ++ swap16 f.payload, singleFragment := s.singleFragment }]
                     acc := [], singleFragment := true })

/-- R66, R67: `swap16` exchanges the bytes of each pair, copies an odd last byte, and is its own inverse. -/
def Obligations.SwapExchangesPairs : Prop :=
  ∀ p : List Byte, (swap16 p).length = p.length ∧ swap16 (swap16 p) = p ∧
    (∀ i, 2 * i + 1 < p.length → (swap16 p)[2 * i]? = p[2 * i + 1]? ∧ (swap16 p)[2 * i + 1]? = p[2 * i]?) ∧
    (p.length % 2 = 1 → (swap16 p)[p.length - 1]? = p[p.length - 1]?)

/-- R186: a push beyond a finite `ACC_MAX` is refused. -/
def Obligations.PushBeyondAccMaxRefused : Prop :=
  ∀ (s : State) (f : RawFrame) (m : Nat), s.colDone = false → f.payload.length = f.dlen.toNat + 1 →
    s.cfg.accMax = some m → m < s.acc.length + f.payload.length →
    exec (.colPush f) s = .refused .accMaxExceeded

/-- R180 requires `len(f.payload) = f.dlen + 1`, and U4 of spec/93_implementation_defined.md refuses any other RawFrame;
one within `ACC_MAX` whose payload exceeds `MAX_PAYLOAD` is refused too (R307). That `MAX_PAYLOAD` bounds `COL.PUSH` and
not what `SYNC` takes is the model's choice (log entry 21). -/
def Obligations.PushOfTheWrongLengthRefused : Prop :=
  ∀ (s : State) (f : RawFrame), s.colDone = false →
    (f.payload.length ≠ f.dlen.toNat + 1 → exec (.colPush f) s = .refused .badFrameLength) ∧
    (f.payload.length = f.dlen.toNat + 1 → (∀ m, s.cfg.accMax = some m → s.acc.length + f.payload.length ≤ m) →
      s.cfg.maxPayload < f.payload.length → exec (.colPush f) s = .refused .maxPayloadExceeded)

/-- R187: the collator does not read `crc_valid`, `crc_rx`, `version`, `ptype`, `sec_hdr`. -/
def Obligations.CollatorIgnoresTheCrcFields : Prop :=
  ∀ (s : State) (f : RawFrame) (version : BitVec 3) (ptype secHdr : BitVec 1) (crcRx : Word16) (crcValid : Bool),
    exec (.colPush { f with version := version, ptype := ptype, secHdr := secHdr, crcRx := crcRx,
                            crcValid := crcValid }) s = exec (.colPush f) s

/-- R188: `COL.END` drops an unterminated run and flags it; every later `COL` operation is refused. -/
def Obligations.ColEndFinishesTheCollator : Prop :=
  ∀ (s : State) (f : RawFrame),
    (s.colDone = false → exec .colEnd s =
      .next { s with residualAtEnd := s.residualAtEnd || decide (s.acc ≠ []), acc := [], colDone := true }) ∧
    (s.colDone = true → exec .colEnd s = .refused .colDone ∧ exec (.colPush f) s = .refused .colDone)

/-- R190: the packet of a run is the concatenation of its frames' swapped payloads, with the first and last sequence
numbers and the terminal frame's application id; with even fragments it is the swap of the concatenation. -/
def Obligations.RunIsReassembled : Prop :=
  ∀ (s : State) (fs : List RawFrame) (f : RawFrame), s.colDone = false → s.acc = [] → s.singleFragment = true →
    (∀ m, s.cfg.accMax = some m → ((fs ++ [f]).flatMap RawFrame.payload).length ≤ m) →
    (∀ g ∈ fs ++ [f], g.payload.length = g.dlen.toNat + 1 ∧ g.payload.length ≤ s.cfg.maxPayload) →
    (∀ g ∈ fs, g.gflags ≠ 3) → f.gflags = 3 →
    ∃ t, execAll ((fs ++ [f]).map .colPush) s = .next t ∧ t.acc = [] ∧ t.singleFragment = true ∧
      t.packetOut = s.packetOut ++
        [{ startSeq := (fs.head?.getD f).seq, endSeq := f.seq, appid := f.appid,
           payload := (fs ++ [f]).flatMap (fun g => swap16 g.payload), singleFragment := decide (fs = []) }] ∧
      ((∀ g ∈ fs, g.payload.length % 2 = 0) →
        (fs ++ [f]).flatMap (fun g => swap16 g.payload) = swap16 ((fs ++ [f]).flatMap RawFrame.payload))

/-- R189: one packet per pushed terminal frame, in the order of those frames. -/
def Obligations.OnePacketPerTerminalFrame : Prop :=
  ∀ (fs : List RawFrame) (s t : State), execAll (fs.map .colPush) s = .next t →
    ∃ ps, t.packetOut = s.packetOut ++ ps ∧
      ps.map (fun p => (p.endSeq, p.appid)) =
        (fs.filter (fun f => decide (f.gflags = 3))).map (fun f => (f.seq, f.appid))

/-! ### CRC-16 (spec/40_crc16.md) -/

/-- R141: `CRC16.STEP`, the register as a number: eight doublings, each reduced by `0x11021` when it overflows. -/
def Obligations.CrcStepDividesByThePolynomial : Prop :=
  ∀ (s : State) (c : Word16) (b : Byte),
    exec (.crc16Step c b) s =
      .next { s with result := .code (BitVec.ofNat 16
        ((fun x : Nat => if 2 ^ 15 ≤ x then (2 * x) % 2 ^ 16 ^^^ 0x1021 else 2 * x)^[8]
          (c.toNat ^^^ (b.toNat * 256)))) }

/-- R142, R143: `CRC16` of a buffer is the register preset to `0xFFFF` and stepped on each byte, with the final
exclusive-or. -/
def Obligations.CrcOfABufferIsTheRunningRegister : Prop :=
  ∃ reg : List Byte → Word16, reg [] = 0xFFFF#16 ∧
    (∀ (s : State) (buf : List Byte) (b : Byte),
      exec (.crc16Step (reg buf) b) s = .next { s with result := .code (reg (buf ++ [b])) }) ∧
    (∀ (s : State) (buf : List Byte),
      exec (.crc16 buf) s = .next { s with result := .code (reg buf ^^^ s.cfg.crcXorout) })

/-- R145, the equivalent test: without a final exclusive-or, data followed by its own CRC has CRC 0, and only then. -/
def Obligations.CrcOverDataAndCrcIsZero : Prop :=
  ∀ (buf : List Byte) (c : Word16), crc16 0x0000#16 (buf ++ be16 c) = 0x0000#16 ↔ crc16 0x0000#16 buf = c

/-- R146: inverting one bit of the header, the payload or the CRC of a valid frame makes `crc_valid` 0. -/
def Obligations.SingleBitErrorIsDetected : Prop :=
  ∀ (cfg : Config) (hdr payload : List Byte) (crc : Word16), crcValidFlag cfg hdr payload crc = true →
    (∀ k j, k < hdr.length → j < 8 →
      crcValidFlag cfg (hdr.modify k (· ^^^ (1#8 <<< j))) payload crc = false) ∧
    (∀ k j, k < payload.length → j < 8 →
      crcValidFlag cfg hdr (payload.modify k (· ^^^ (1#8 <<< j))) crc = false) ∧
    (∀ j, j < 16 → crcValidFlag cfg hdr payload (crc ^^^ (1#16 <<< j)) = false)

/-! ### Codec (a) (spec/43_codec_10plus6.md) -/

/-- R201, R100: the code of a value is its ten top significant bits, its sign and its leading-zero count. -/
def Obligations.Enc10p6PacksMantissaSignAndLz : Prop :=
  ∀ (s : State) (v : Word32),
    let n := v.toInt.natAbs
    let lz := 32 - n.size
    exec (.enc10p6 v) s =
      .next { s with result := .code (BitVec.ofNat 16
        (if v = 0 then 0 else n * 2 ^ lz / 2 ^ 22 * 64 + (if v.toInt < 0 then 32 else 0) + lz)) }

/-- R204, R108: every 16-bit pattern decodes by the one formula. -/
def Obligations.Dec10p6ShiftsTheMantissaBack : Prop :=
  ∀ (s : State) (c : Word16),
    let lz := c.toNat % 32
    let m := c.toNat / 64 * 64
    let a := if lz ≤ 16 then m * 2 ^ (16 - lz) else m / 2 ^ (lz - 16)
    exec (.dec10p6 c) s =
      .next { s with result := .value (BitVec.ofInt 32 (if c.toNat / 32 % 2 = 1 then -(a : Int) else a)) }

/-- R205, R203: the decoded value has the sign of the value and its magnitude truncated to ten significant bits. -/
def Obligations.Codec10p6KeepsTenBits : Prop :=
  ∀ v : Word32,
    let n := v.toInt.natAbs
    let k := n.size - 10
    let d := (dec10p6 (enc10p6 v)).toInt
    d = v.toInt.sign * (n / 2 ^ k * 2 ^ k : Nat) ∧
    d.natAbs ≤ n ∧ n - d.natAbs < 2 ^ k ∧ (v ≠ 0 → (n - d.natAbs) * 2 ^ 9 < n)

/-- R206, R101: decoding and encoding again gives the same code exactly for the canonical codes. -/
def Obligations.Codec10p6FixesCanonicalCodes : Prop :=
  ∀ c : Word16, enc10p6 (dec10p6 c) = c ↔ canonical10p6 c

/-- R208, R69: the buffer form writes the two bytes of each code in the order `BUF_WORD_ORDER` says. -/
def Obligations.Enc10p6BufWritesEachCode : Prop :=
  ∀ (s : State) (a : List Word32), (∀ m, s.cfg.nMax = some m → a.length ≤ m) →
    exec (.enc10p6Buf a) s =
      .next { s with result := .bytes (a.flatMap fun v =>
        let lo := BitVec.ofNat 8 (enc10p6 v).toNat
        let hi := BitVec.ofNat 8 ((enc10p6 v).toNat / 256)
        if s.cfg.bufWordOrder = .little then [lo, hi] else [hi, lo]) }

/-- R209, R305: the buffer decoder delivers `N` values, or `DecodeTruncation` and nothing else. -/
def Obligations.Dec10p6BufReadsEachCode : Prop :=
  ∀ (s : State) (buf : List Byte) (n : Nat), (∀ m, s.cfg.nMax = some m → n ≤ m) →
    (buf.length < 2 * n → exec (.dec10p6Buf buf n) s =
      .next { s with result := .truncation { needed := 2 * n, avail := buf.length } }) ∧
    (2 * n ≤ buf.length → exec (.dec10p6Buf buf n) s =
      .next { s with result := .array ((List.range n).map fun i =>
        let b0 := (buf.getD (2 * i) 0).toNat
        let b1 := (buf.getD (2 * i + 1) 0).toNat
        dec10p6 (BitVec.ofNat 16 (if s.cfg.bufWordOrder = .little then b1 * 256 + b0 else b0 * 256 + b1))) })

/-! ### Codec (b) (spec/44_codec_4into5.md) -/

/-- R221, R102, R103: the shift of each lane, its nibble in word 0, and its word of sign, flag and mantissa. -/
def Obligations.Enc4to5PacksFourLanes : Prop :=
  ∀ (s : State) (v0 v1 v2 v3 : Word32),
    let mag (v : Word32) : Nat := v.toInt.natAbs
    let sh (v : Word32) : Nat := (mag v).size - 14
    let nib (v : Word32) : Nat := if 16 ≤ sh v then sh v - 16 else sh v
    let word (v : Word32) : Word16 := BitVec.ofNat 16
      (mag v / 2 ^ sh v + (if 16 ≤ sh v then 2 ^ 14 else 0) + (if v.toInt < 0 then 2 ^ 15 else 0))
    let w0 : Word16 := BitVec.ofNat 16 (nib v0 + 2 ^ 4 * nib v1 + 2 ^ 8 * nib v2 + 2 ^ 12 * nib v3)
    exec (.enc4to5 v0 v1 v2 v3) s =
      .next { s with result := .words w0 (word v0) (word v1) (word v2) (word v3) }

/-- R224, R109: every pattern of five words decodes lane by lane, modulo `2^32`. -/
def Obligations.Dec4to5ShiftsEachLane : Prop :=
  ∀ (s : State) (w0 w1 w2 w3 w4 : Word16),
    let lane (i : Nat) (w : Word16) : Word32 :=
      let a : Nat := w.toNat % 2 ^ 14 * 2 ^ (w0.toNat / 2 ^ (4 * i) % 16 + 16 * (w.toNat / 2 ^ 14 % 2))
      BitVec.ofInt 32 (if w.toNat / 2 ^ 15 = 1 then -(a : Int) else a)
    exec (.dec4to5 w0 w1 w2 w3 w4) s =
      .next { s with result := .values (lane 0 w1) (lane 1 w2) (lane 2 w3) (lane 3 w4) }

/-- R225, R223: encoding and decoding keeps each sign and the top 14 significant bits of each magnitude; decoding and
encoding gives the same words exactly when every lane is canonical (R104). -/
def Obligations.Codec4to5RoundTrips : Prop :=
  (∀ (s : State) (v0 v1 v2 v3 : Word32),
    let kept (v : Word32) : Int :=
      v.toInt.sign * (v.toInt.natAbs / 2 ^ (v.toInt.natAbs.size - 14) * 2 ^ (v.toInt.natAbs.size - 14) : Nat)
    ∃ w0 w1 w2 w3 w4 x0 x1 x2 x3,
      exec (.enc4to5 v0 v1 v2 v3) s = .next { s with result := .words w0 w1 w2 w3 w4 } ∧
      exec (.dec4to5 w0 w1 w2 w3 w4) s = .next { s with result := .values x0 x1 x2 x3 } ∧
      x0.toInt = kept v0 ∧ x1.toInt = kept v1 ∧ x2.toInt = kept v2 ∧ x3.toInt = kept v3) ∧
  (∀ (s : State) (w0 w1 w2 w3 w4 : Word16) (x0 x1 x2 x3 : Word32),
    exec (.dec4to5 w0 w1 w2 w3 w4) s = .next { s with result := .values x0 x1 x2 x3 } →
    (exec (.enc4to5 x0 x1 x2 x3) s = .next { s with result := .words w0 w1 w2 w3 w4 } ↔
      canonicalLane (nibble w0 0) w1 ∧ canonicalLane (nibble w0 1) w2 ∧ canonicalLane (nibble w0 2) w3 ∧
        canonicalLane (nibble w0 3) w4))

/-- R226: a group of four values becomes the five words of `ENC4TO5`, word 0 first, and an array of no whole number of
groups is refused. -/
def Obligations.Enc4to5BufWritesEachGroup : Prop :=
  ∀ s : State,
    (∀ a : List Word32, a.length % 4 ≠ 0 → exec (.enc4to5Buf a) s = .refused .countNotMultipleOf4) ∧
    (∀ groups : List (Word32 × Word32 × Word32 × Word32),
      let a := groups.flatMap fun g => [g.1, g.2.1, g.2.2.1, g.2.2.2]
      (∀ m, s.cfg.nMax = some m → a.length ≤ m) →
      exec (.enc4to5Buf a) s =
        .next { s with result := .bytes (groups.flatMap fun g =>
          [enc4to5W0 g.1 g.2.1 g.2.2.1 g.2.2.2, laneWord g.1, laneWord g.2.1, laneWord g.2.2.1,
            laneWord g.2.2.2].flatMap fun w =>
              let lo := BitVec.ofNat 8 w.toNat
              let hi := BitVec.ofNat 8 (w.toNat / 256)
              if s.cfg.bufWordOrder = .little then [lo, hi] else [hi, lo]) })

/-- R227, R305: the buffer decoder delivers the values of `N / 4` groups, or `DecodeTruncation` and nothing else; a count
that is no multiple of 4 is refused. -/
def Obligations.Dec4to5BufReadsEachGroup : Prop :=
  ∀ (s : State) (buf : List Byte) (n : Nat),
    (n % 4 ≠ 0 → exec (.dec4to5Buf buf n) s = .refused .countNotMultipleOf4) ∧
    (n % 4 = 0 → (∀ m, s.cfg.nMax = some m → n ≤ m) → buf.length < 10 * (n / 4) →
      exec (.dec4to5Buf buf n) s =
        .next { s with result := .truncation { needed := 10 * (n / 4), avail := buf.length } }) ∧
    (n % 4 = 0 → (∀ m, s.cfg.nMax = some m → n ≤ m) → 10 * (n / 4) ≤ buf.length →
      exec (.dec4to5Buf buf n) s =
        .next { s with result := .array ((List.range n).map fun k =>
          let word (j : Nat) : Word16 :=
            let b0 := (buf.getD (10 * (k / 4) + 2 * j) 0).toNat
            let b1 := (buf.getD (10 * (k / 4) + 2 * j + 1) 0).toNat
            BitVec.ofNat 16 (if s.cfg.bufWordOrder = .little then b1 * 256 + b0 else b0 * 256 + b1)
          decLane (nibble (word 0) (k % 4)) (word (k % 4 + 1))) })

/-! ### Codec (c) (spec/45_codec_sharedlz.md) -/

/-- R245, R243, R249: the runs of an array are cut as the three conditions say and as late as they allow, and no other
cutting is. The class of an element is arithmetic (`mayJoin`, `wellCut`): its significant bits above 15, at most 16 where
a run starts and, with `SLZ_COLLAPSE_BEFORE_COMPARE`, where it is compared. -/
def Obligations.SlzRunsAreCutGreedily : Prop :=
  ∀ (collapse : Bool) (es : List SlzElem),
    ((slzRuns collapse es).flatMap runElems = es ∧ (∀ r ∈ slzRuns collapse es, wellCut collapse r) ∧
      cutGreedily collapse (slzRuns collapse es)) ∧
    ∀ rs : List SlzRun, rs.flatMap runElems = es → (∀ r ∈ rs, wellCut collapse r) → cutGreedily collapse rs →
      rs = slzRuns collapse es

/-- R243, R244, R105: both encoders write the greedy runs one after another: the shift with the sign in bit 7, the length,
then `(mag >> S) mod 2^16` of each element, low byte first. -/
def Obligations.SlzEncodersWriteTheRuns : Prop :=
  ∀ (s : State) (a : List Word32), (∀ m, s.cfg.nMax = some m → a.length ≤ m) →
    let stream (rs : List SlzRun) : List Byte := rs.flatMap fun r =>
      [BitVec.ofNat 8 (r.shift + if r.neg then 128 else 0), BitVec.ofNat 8 r.mags.length] ++
        r.mags.flatMap fun m =>
          [BitVec.ofNat 8 (m.toNat / 2 ^ r.shift), BitVec.ofNat 8 (m.toNat / 2 ^ r.shift / 256)]
    let unsigned (x : Word32) : SlzElem := { mag := x, neg := false }
    let signed (x : Word32) : SlzElem := { mag := BitVec.ofNat 32 x.toInt.natAbs, neg := decide (x.toInt < 0) }
    let c := s.cfg.slzCollapseBeforeCompare
    exec (.encSlzU a) s = .next { s with result := .bytes (stream (slzRuns c (a.map unsigned))) } ∧
    exec (.encSlzS a) s = .next { s with result := .bytes (stream (slzRuns c (a.map signed))) }

/-- R241: the class of a magnitude: 0 below `2^15`, else the number of significant bits above 15, and 16 for bit 31. -/
def Obligations.SlzClassCountsSignificantBits : Prop :=
  ∀ a : Word32, rawClass a = a.toNat.size - 15 ∧ slzClass a = min (a.toNat.size - 15) 16 ∧
    (rawClass a = 17 ↔ 2 ^ 31 ≤ a.toNat)

/-- R255, R106: the length of an encoded array, and the bounds on the number of its runs. -/
def Obligations.SlzStreamLength : Prop :=
  ∀ (collapse : Bool) (es : List SlzElem),
    (encSlz collapse es).length = 2 * (slzRuns collapse es).length + 2 * es.length ∧
    (slzRuns collapse es).length ≤ es.length ∧ es.length ≤ 255 * (slzRuns collapse es).length

/-- R250, R251, R252: both decoders compute what the index-by-index loop of the rule computes, with its truncation, on
every buffer: sign, shift and element by arithmetic (`runSignShift`, `runElement`), for every shift byte. -/
def Obligations.SlzDecodersFollowTheIndexLoop : Prop :=
  ∀ (s : State) (buf : List Byte) (n : Nat), (∀ m, s.cfg.nMax = some m → n ≤ m) →
    exec (.decSlzU buf n) s = .next { s with result := slzResult (readRuns false buf n (buf.length + 1) 0 []) } ∧
    exec (.decSlzS buf n) s = .next { s with result := slzResult (readRuns true buf n (buf.length + 1) 0 []) }

/-- R254, R246: a decoder given an encoded array, whatever follows it, consumes the whole encoding and returns each
magnitude `((mag >> S) mod 2^16) << S` with its sign. -/
def Obligations.SlzRoundTrip : Prop :=
  ∀ (s : State) (a : List Word32) (extra : List Byte), (∀ m, s.cfg.nMax = some m → a.length ≤ m) →
    let decoded (rs : List SlzRun) : List Word32 := rs.flatMap fun r => r.mags.map fun m =>
      BitVec.ofInt 32 ((if r.neg then -1 else 1) * (m.toNat / 2 ^ r.shift % 2 ^ 16 * 2 ^ r.shift : Nat))
    let u := a.map unsignedElem
    let v := a.map signedElem
    let c := s.cfg.slzCollapseBeforeCompare
    exec (.decSlzU (encSlz c u ++ extra) a.length) s =
      .next { s with result := .slzArray (decoded (slzRuns c u)) (encSlz c u).length } ∧
    exec (.decSlzS (encSlz c v ++ extra) a.length) s =
      .next { s with result := .slzArray (decoded (slzRuns c v)) (encSlz c v).length }

/-- R253, R305: every proper prefix of an encoded array is truncated, at the first two bytes it lacks. -/
def Obligations.SlzPrefixIsTruncated : Prop :=
  ∀ (s : State) (a : List Word32) (k : Nat), (∀ m, s.cfg.nMax = some m → a.length ≤ m) →
    let c := s.cfg.slzCollapseBeforeCompare
    (k < (encSlz c (a.map unsignedElem)).length →
      exec (.decSlzU ((encSlz c (a.map unsignedElem)).take k) a.length) s =
        .next { s with result := .truncation { needed := k / 2 * 2 + 2, avail := k } }) ∧
    (k < (encSlz c (a.map signedElem)).length →
      exec (.decSlzS ((encSlz c (a.map signedElem)).take k) a.length) s =
        .next { s with result := .truncation { needed := k / 2 * 2 + 2, avail := k } })

/-- R81, R252, R305: a codec (c) decoder delivers exactly `N` elements read from the bytes it consumed and no others, or
names a read that would have passed the end of the buffer. -/
def Obligations.SlzDecoderStaysInTheBuffer : Prop :=
  ∀ (signed : Bool) (buf : List Byte) (n : Nat),
    (∀ out p, decSlz signed buf n = .ok (out, p) →
      p ≤ buf.length ∧ out.length = n ∧
        ∀ buf', buf'.take p = buf.take p → decSlz signed buf' n = .ok (out, p)) ∧
    (∀ t, decSlz signed buf n = .error t → t.avail = buf.length ∧ buf.length < t.needed ∧ t.needed ≤ buf.length + 2)

/-! ### All units (spec/10_state.md, 20_memory.md, 60_exceptions.md, 70_reset_and_hazards.md) -/

/-- R38, R76(4): a CODEC operation leaves everything but its result as it was, and the result depends on its operands
and the parameters alone. -/
def Obligations.CodecOperationsAreStateless : Prop :=
  ∀ (i : Instr) (s t : State), unitOf i = some .codec → exec i s = .next t →
    t = { s with result := t.result } ∧
    ∀ s' : State, s'.cfg = s.cfg → exec i s' = .next { s' with result := t.result }

/-- R307, D39: beyond a finite `N_MAX` every codec array operation is refused. -/
def Obligations.CountBeyondNMaxRefused : Prop :=
  ∀ (s : State) (m : Nat), s.cfg.nMax = some m →
    (∀ a : List Word32, m < a.length →
      exec (.encSlzU a) s = .refused .nMaxExceeded ∧ exec (.encSlzS a) s = .refused .nMaxExceeded ∧
      exec (.enc10p6Buf a) s = .refused .nMaxExceeded ∧
      (a.length % 4 = 0 → exec (.enc4to5Buf a) s = .refused .nMaxExceeded)) ∧
    (∀ (buf : List Byte) (n : Nat), m < n →
      exec (.decSlzU buf n) s = .refused .nMaxExceeded ∧ exec (.decSlzS buf n) s = .refused .nMaxExceeded ∧
      exec (.dec10p6Buf buf n) s = .refused .nMaxExceeded ∧
      (n % 4 = 0 → exec (.dec4to5Buf buf n) s = .refused .nMaxExceeded))

/-- R20: no unit's operation changes a register or output of another unit. The last clause is not R20's: that no
operation, `RESET` included, changes the parameters (R9, R10) is how the model holds them (log entry 7), and that none
changes the commands presented is the model's choice (log entry 1; through `RESET` log entry 9). -/
def Obligations.OperationsTouchTheirOwnUnit : Prop :=
  ∀ (i : Instr) (s t : State), exec i s = .next t →
    (unitOf i = some .sync →
      t = { s with syncState := t.syncState, window := t.window, seekCount := t.seekCount,
                   garbageCount := t.garbageCount, hdrBuf := t.hdrBuf, hVersion := t.hVersion, hType := t.hType,
                   hSec := t.hSec, hAppid := t.hAppid, hGflags := t.hGflags, hSeq := t.hSeq, hDlen := t.hDlen,
                   bodyBuf := t.bodyBuf, partialAtEnd := t.partialAtEnd, frameOut := t.frameOut,
                   syncDiag := t.syncDiag }) ∧
    (unitOf i = some .col →
      t = { s with acc := t.acc, lastAppid := t.lastAppid, startSeq := t.startSeq,
                   singleFragment := t.singleFragment, packetOut := t.packetOut, colDiag := t.colDiag,
                   colDone := t.colDone, residualAtEnd := t.residualAtEnd }) ∧
    (t.cfg = s.cfg ∧ t.cmdIn = s.cmdIn)

/-- R76(3), R76(4): operations of different units commute. -/
def Obligations.OperationsOfDifferentUnitsCommute : Prop :=
  ∀ (i j : Instr) (u v : HwUnit) (s a c : State), unitOf i = some u → unitOf j = some v → u ≠ v →
    exec i s = .next a → exec j a = .next c →
    ∃ b, exec j s = .next b ∧ exec i b = .next c

/-- R31, R37, R25, R318: but for `RESET`, outputs and diagnostics only grow and a `garbage_count` of `GARBAGE_WIDTH` bits
never falls. -/
def Obligations.OutputsOnlyGrow : Prop :=
  ∀ (i : Instr) (s t : State), s.garbageCount < 2 ^ s.cfg.garbageWidth → exec i s = .next t → i ≠ .reset →
    s.frameOut <+: t.frameOut ∧ s.syncDiag <+: t.syncDiag ∧ s.packetOut <+: t.packetOut ∧ s.colDiag <+: t.colDiag ∧
      s.garbageCount ≤ t.garbageCount

/-- R316, R300: an operation raises at most one event, `SYNC` operations only `SyncLoss` or `CrcMismatch`, `COL.PUSH` only
`ApplicationIdDrift`, and every other one none. -/
def Obligations.AtMostOneEventPerOperation : Prop :=
  ∀ (i : Instr) (s t : State), exec i s = .next t → i ≠ .reset →
    ∃ es ec, t.syncDiag = s.syncDiag ++ es ∧ t.colDiag = s.colDiag ++ ec ∧ es.length + ec.length ≤ 1 ∧
      (es ≠ [] → unitOf i = some .sync) ∧ (ec ≠ [] → ∃ f, i = .colPush f) ∧
      (i = .syncEnd → ∀ e ∈ es, e.condition = .syncLoss)

/-- R340, R43: `RESET` in any state puts every register, buffer and output sequence at the value of the table. That the
parameters, the commands still presented and the last CODEC result stay is the model's choice (log entry 9). -/
def Obligations.ResetGivesTheTable : Prop :=
  ∀ s : State, ∃ t, exec .reset s = .next t ∧
    t.syncState = .seekingSync ∧ t.window = 0 ∧ t.seekCount = 0 ∧ t.garbageCount = 0 ∧ t.hdrBuf = [] ∧
    t.bodyBuf = [] ∧ t.partialAtEnd = false ∧ t.hVersion = 0 ∧ t.hType = 0 ∧ t.hSec = 0 ∧ t.hAppid = 0 ∧
    t.hGflags = 0 ∧ t.hSeq = 0 ∧ t.hDlen = 0 ∧ t.frameOut = [] ∧ t.syncDiag = [] ∧ t.acc = [] ∧ t.lastAppid = 0 ∧
    t.startSeq = 0 ∧ t.singleFragment = true ∧ t.colDone = false ∧ t.residualAtEnd = false ∧ t.packetOut = [] ∧
    t.colDiag = [] ∧ t.delivered = 0 ∧ t.cfg = s.cfg ∧ t.cmdIn = s.cmdIn ∧ t.result = s.result

/-- R120, R123, R19: a row of the table that is a data format is no operation; issued as one it is refused. That this is
what the ten rows stand for is the model's reading of the table (log entry 11). -/
def Obligations.DataFormatsAreNoOperations : Prop :=
  ∀ (s : State) (v : BitVec 3) (t h : BitVec 1) (a : BitVec 11) (g : BitVec 2) (q : BitVec 14) (w : BitVec 16)
    (m10 : BitVec 10) (lz : BitVec 5) (n0 n1 n2 n3 : BitVec 4) (m14 : BitVec 14) (sh l : BitVec 8)
    (sh7 : BitVec 7),
    exec .frameMarker s = .refused (.dataFormat .frameMarker) ∧
    exec (.frameW0 v t h a) s = .refused (.dataFormat .frameW0) ∧
    exec (.frameW1 g q) s = .refused (.dataFormat .frameW1) ∧
    exec (.frameW2 w) s = .refused (.dataFormat .frameW2) ∧
    exec (.code10p6 m10 t lz) s = .refused (.dataFormat .code10p6) ∧
    exec (.code4to5W0 n0 n1 n2 n3) s = .refused (.dataFormat .code4to5W0) ∧
    exec (.code4to5Wi t h m14) s = .refused (.dataFormat .code4to5Wi) ∧
    exec (.slzHdrU sh l) s = .refused (.dataFormat .slzHdrU) ∧
    exec (.slzHdrS t sh7 l) s = .refused (.dataFormat .slzHdrS) ∧
    exec (.slzWord w) s = .refused (.dataFormat .slzWord)

/-- R40, R21: in every state a read of each of the nine status registers returns that register's value, what the last
operation left; so right after reset it returns the reset value of R43. -/
def Obligations.StatusRegistersReadTheState : Prop :=
  (∀ s : State,
    readStatus .syncState s =
      (match s.syncState with | .seekingSync => 0 | .readingHeader => 1 | .readingBody => 2 | .done => 3) ∧
    readStatus .garbageCount s = s.garbageCount ∧
    readStatus .partialAtEnd s = (if s.partialAtEnd = true then 1 else 0) ∧
    readStatus .colDone s = (if s.colDone = true then 1 else 0) ∧
    readStatus .residualAtEnd s = (if s.residualAtEnd = true then 1 else 0) ∧
    readStatus .singleFragment s = (if s.singleFragment = true then 1 else 0) ∧
    readStatus .lenAcc s = s.acc.length ∧ readStatus .lastAppid s = s.lastAppid.toNat ∧
    readStatus .startSeq s = s.startSeq.toNat) ∧
  (readStatus .syncState State.reset = 0 ∧ readStatus .garbageCount State.reset = 0 ∧
    readStatus .partialAtEnd State.reset = 0 ∧ readStatus .colDone State.reset = 0 ∧
    readStatus .residualAtEnd State.reset = 0 ∧ readStatus .singleFragment State.reset = 1 ∧
    readStatus .lenAcc State.reset = 0 ∧ readStatus .lastAppid State.reset = 0 ∧ readStatus .startSeq State.reset = 0)

/-- The invariant (`Inv`, from R22 to R37, R145, R360) holds right after reset. -/
def Obligations.ResetSatisfiesTheInvariant : Prop := Inv State.reset

/-- Every step keeps the invariant: counters within their width, buffers within their capacities, fill levels as
`sync_state` says, latches equal to the parsed header, every emitted frame of its declared length with the right
`crc_valid`, `single_fragment` exactly when no run is in progress, end flags only at the end, no frame delivered
before it is emitted. -/
def Obligations.StepKeepsTheInvariant : Prop :=
  ∀ s t : State, Inv s → step s = .next t → Inv t
end

