-- ==== Sys2Proof/Laws/Bytes.lean ====
section
/-! SUPPORT. The byte orders and bit layouts of Operands.lean, each with its inverse, and the CRC register over
appended buffers. -/

namespace Sys2Proof.Machine

/-! ### Byte orders (R15) -/

theorem getLsbD_u16be (b0 b1 : Byte) (i : Nat) :
    (u16be b0 b1).getLsbD i = if i < 8 then b1.getLsbD i else b0.getLsbD (i - 8) := by
  by_cases h : i < 8
  · have : i < 16 := by omega
    simp [u16be, h, this]
  · have h1 : b1.getLsbD i = false := BitVec.getLsbD_of_ge _ _ (by omega)
    by_cases h' : i < 16
    · simp [u16be, h, h', h1]
    · have h0 : b0.getLsbD (i - 8) = false := BitVec.getLsbD_of_ge _ _ (by omega)
      simp [u16be, h, h', h0]

@[simp] theorem u16be_of_be16 (w : Word16) : u16be (w.extractLsb' 8 8) (w.extractLsb' 0 8) = w := by
  apply BitVec.eq_of_getLsbD_eq
  intro i hi
  rw [getLsbD_u16be]
  split
  · simp [*]
  · have : i - 8 < 8 := by omega
    have : 8 + (i - 8) = i := by omega
    simp [*]

@[simp] theorem be16_u16be (b0 b1 : Byte) : be16 (u16be b0 b1) = [b0, b1] := by
  have h0 : (u16be b0 b1).extractLsb' 8 8 = b0 := by
    apply BitVec.eq_of_getLsbD_eq; intro i hi; simp [getLsbD_u16be, hi]
  have h1 : (u16be b0 b1).extractLsb' 0 8 = b1 := by
    apply BitVec.eq_of_getLsbD_eq; intro i hi; simp [getLsbD_u16be, hi]
  rw [be16, h0, h1]

@[simp] theorem u16le_of_le16 (w : Word16) : u16le (w.extractLsb' 0 8) (w.extractLsb' 8 8) = w :=
  u16be_of_be16 w

@[simp] theorem le16_u16le (b0 b1 : Byte) : le16 (u16le b0 b1) = [b0, b1] := by
  have h := be16_u16be b1 b0
  simp only [be16, List.cons.injEq, and_true] at h
  simp [le16, u16le, h]

@[simp] theorem be16_length (w : Word16) : (be16 w).length = 2 := rfl

@[simp] theorem le16_length (w : Word16) : (le16 w).length = 2 := rfl

@[simp] theorem le32_length (v : Word32) : (le32 v).length = 4 := rfl

@[simp] theorem bufWord_length (o : WordOrder) (w : Word16) : (bufWord o w).length = 2 := by
  cases o <;> rfl

@[simp] theorem u32le_of_le32 (v : Word32) :
    u32le (v.extractLsb' 0 8) (v.extractLsb' 8 8) (v.extractLsb' 16 8) (v.extractLsb' 24 8) = v := by
  apply BitVec.eq_of_getLsbD_eq
  intro i hi
  rcases (by omega : i < 8 ∨ (8 ≤ i ∧ i < 16) ∨ (16 ≤ i ∧ i < 24) ∨ 24 ≤ i) with h | h | h | h
  · have a1 : ¬ 8 ≤ i := by omega
    have a2 : i < 16 := by omega
    have a3 : i < 24 := by omega
    simp [u32le, *]
  · have a1 : 8 + (i - 8) = i := by omega
    have a2 : ¬ i < 8 := by omega
    have a3 : i - 8 < 8 := by omega
    have a4 : i < 24 := by omega
    simp [u32le, *]
  · have a1 : 16 + (i - 16) = i := by omega
    have a2 : ¬ i < 8 := by omega
    have a3 : ¬ i < 16 := by omega
    have a4 : i - 16 < 8 := by omega
    have a5 : ¬ i - 8 < 8 := by omega
    simp [u32le, *]
  · have a1 : 24 + (i - 24) = i := by omega
    have a2 : ¬ i < 8 := by omega
    have a3 : ¬ i < 16 := by omega
    have a4 : ¬ i < 24 := by omega
    have a5 : ¬ i - 8 < 8 := by omega
    have a6 : ¬ i - 16 < 8 := by omega
    have a7 : i - 24 < 8 := by omega
    simp [u32le, *]

/-! ### Header words (R92, R93, R95) -/

@[simp] theorem w0Version_packW0 (v : BitVec 3) (t h : BitVec 1) (a : BitVec 11) :
    w0Version (packW0 v t h a) = v := by
  apply BitVec.eq_of_getLsbD_eq
  intro i hi
  rcases (by omega : i = 0 ∨ i = 1 ∨ i = 2) with rfl | rfl | rfl <;>
    simp [w0Version, packW0, BitVec.getLsbD_of_ge]

@[simp] theorem w0Ptype_packW0 (v : BitVec 3) (t h : BitVec 1) (a : BitVec 11) :
    w0Ptype (packW0 v t h a) = t := by
  apply BitVec.eq_of_getLsbD_eq
  intro i hi
  obtain rfl : i = 0 := by omega
  simp [w0Ptype, packW0, BitVec.getLsbD_of_ge]

@[simp] theorem w0SecHdr_packW0 (v : BitVec 3) (t h : BitVec 1) (a : BitVec 11) :
    w0SecHdr (packW0 v t h a) = h := by
  apply BitVec.eq_of_getLsbD_eq
  intro i hi
  obtain rfl : i = 0 := by omega
  simp [w0SecHdr, packW0, BitVec.getLsbD_of_ge]

@[simp] theorem w0Appid_packW0 (v : BitVec 3) (t h : BitVec 1) (a : BitVec 11) :
    w0Appid (packW0 v t h a) = a := by
  apply BitVec.eq_of_getLsbD_eq
  intro i hi
  have h11 : i < 13 := by omega
  have h12 : i < 12 := by omega
  have h16 : i < 16 := by omega
  simp [w0Appid, packW0, *]

@[simp] theorem w1Gflags_packW1 (g : BitVec 2) (q : BitVec 14) : w1Gflags (packW1 g q) = g := by
  apply BitVec.eq_of_getLsbD_eq
  intro i hi
  have h16 : 14 + i < 16 := by omega
  simp [w1Gflags, packW1, *, BitVec.getLsbD_of_ge]

@[simp] theorem w1Seq_packW1 (g : BitVec 2) (q : BitVec 14) : w1Seq (packW1 g q) = q := by
  apply BitVec.eq_of_getLsbD_eq
  intro i hi
  have h16 : i < 16 := by omega
  simp [w1Seq, packW1, *]

/-- A sequence count is below `SEQ_MOD` (R9, R98): its 14 bits are that modulus. -/
theorem seq_lt_seqMod (q : BitVec 14) : q.toNat < Config.seqMod := q.isLt

@[simp] theorem headerBytes_length (f : RawFrame) : (headerBytes f).length = 6 := rfl

/-! ### The CRC register (R141 to R143) -/

@[simp] theorem crcRun_nil (c : Word16) : crcRun c [] = c := rfl

@[simp] theorem crcRun_cons (c : Word16) (b : Byte) (bs : List Byte) :
    crcRun c (b :: bs) = crcRun (crc16Step c b) bs := rfl

/-- `CRC_MSB_FIRST` is true: no byte is reflected (R140). -/
@[simp] theorem crcInput_eq (b : Byte) : crcInput b = b := rfl

theorem crcRun_append (c : Word16) (bs bs' : List Byte) : crcRun c (bs ++ bs') = crcRun (crcRun c bs) bs' :=
  List.foldl_append

end Sys2Proof.Machine
end

