-- ==== Sys2Proof/Laws/Codec.lean ====
section
/-! SUPPORT. Magnitude, sign and leading-zero count (spec/00_scope.md R13, R14) as arithmetic on the integer a pattern
stands for, and the equations of the loops of codec (c). -/

namespace Sys2Proof.Machine

/-! ### Magnitude and sign (R13) -/

theorem sgn_iff (v : Word32) : sgn v = true ↔ v.toInt < 0 := by
  simp [sgn, BitVec.msb_eq_toInt]

theorem abs32_toNat (v : Word32) : (abs32 v).toNat = v.toInt.natAbs := by
  have hv := v.isLt
  have hm := BitVec.msb_eq_decide v
  unfold abs32
  rw [BitVec.toInt_eq_msb_cond]
  cases h : v.msb
  · simp
  · rw [h] at hm
    simp only [Nat.add_one_sub_one, true_eq_decide_iff] at hm
    simp only [if_true, BitVec.toNat_neg]
    omega

/-! ### Leading zeros (R14) -/

@[simp] theorem sig_zero : sig 0#32 = 0 := rfl

theorem lt_two_pow_sig (a : Word32) : a.toNat < 2 ^ sig a := by
  unfold sig
  split
  · simp [*]
  · exact Nat.lt_log2_self

theorem two_pow_sig_le {a : Word32} (h : a ≠ 0#32) : 2 ^ (sig a - 1) ≤ a.toNat := by
  have : a.toNat ≠ 0 := fun h0 => h (BitVec.eq_of_toNat_eq (by simpa using h0))
  simp only [sig, h, if_false, Nat.add_sub_cancel]
  exact Nat.log2_self_le this

theorem sig_le (a : Word32) : sig a ≤ 32 := by
  by_cases h : a = 0#32
  · simp [h]
  · have h1 := two_pow_sig_le h
    have h2 := a.isLt
    by_contra hc
    have : 2 ^ 32 ≤ 2 ^ (sig a - 1) := Nat.pow_le_pow_right (by omega) (by omega)
    omega

theorem sig_eq_size (a : Word32) : sig a = a.toNat.size := by
  apply Nat.le_antisymm
  · by_cases h : a = 0#32
    · simp [h]
    · have h1 := two_pow_sig_le h
      have := Nat.lt_size.2 h1
      omega
  · exact Nat.size_le.2 (lt_two_pow_sig a)

theorem clz32_le (a : Word32) : clz32 a ≤ 32 := by unfold clz32 Config.valueWidth; omega

@[simp] theorem clz32_zero : clz32 0#32 = 32 := rfl

/-! ### The loops of codec (c) -/

@[simp] theorem cutRuns_nil (c : Bool) (cur : SlzRun) : cutRuns c cur [] = [cur] := rfl

theorem cutRuns_cons (c : Bool) (cur : SlzRun) (e : SlzElem) (rest : List SlzElem) :
    cutRuns c cur (e :: rest) =
      if joins c cur e then cutRuns c { cur with mags := cur.mags ++ [e.mag] } rest
      else cur :: cutRuns c (startRun e) rest := rfl

/-- The three conditions of R245, over the class `compareClass` gives. -/
theorem joins_iff (c : Bool) (r : SlzRun) (e : SlzElem) :
    joins c r e = true ↔
      r.mags.length < 255 ∧ ((compareClass c e.mag : Int) - r.shift).natAbs ≤ 1 ∧ e.neg = r.neg := by
  unfold joins
  simp only [Bool.and_eq_true, decide_eq_true_eq, beq_iff_eq]
  simp only [Config.runMax]
  exact ⟨fun ⟨⟨⟨h1, h2⟩, h3⟩, h4⟩ => ⟨h1, by omega, h4⟩, fun ⟨h1, h2, h4⟩ => ⟨⟨⟨h1, by omega⟩, by omega⟩, h4⟩⟩

theorem runBytes_length (r : SlzRun) : (runBytes r).length = 2 + 2 * r.mags.length := by
  simp only [runBytes, List.length_cons, List.length_flatMap, le16_length, List.map_const', List.sum_replicate,
    smul_eq_mul]
  omega

theorem decSlzLoop_zero (sg : Bool) (len : Nat) (bs : List Byte) (p left : Nat) (neg : Bool) (shift : Nat) :
    decSlzLoop sg len bs p 0 left neg shift = .ok ([], p) := by
  cases bs with
  | nil => rfl
  | cons b bs => cases bs <;> rfl

theorem decSlzLoop_header (sg : Bool) (len : Nat) (b0 b1 : Byte) (rest : List Byte) (p want : Nat) (neg : Bool)
    (shift : Nat) :
    decSlzLoop sg len (b0 :: b1 :: rest) p (want + 1) 0 neg shift =
      decSlzLoop sg len rest (p + 2) (want + 1) b1.toNat (readShiftByte sg b0).1 (readShiftByte sg b0).2 := rfl

end Sys2Proof.Machine
end

