-- ==== Sys2Proof/Laws/State.lean ====
section
/-! SUPPORT. One lemma per field per state update, each true by rfl and in the simp set, so that no later proof
unfolds a record update. -/

namespace Sys2Proof.Machine

/-! ### raiseSync -/

@[simp] theorem raiseSync_syncState (e : SyncEvent) (s : State) : (raiseSync e s).syncState = s.syncState := rfl
@[simp] theorem raiseSync_window (e : SyncEvent) (s : State) : (raiseSync e s).window = s.window := rfl
@[simp] theorem raiseSync_seekCount (e : SyncEvent) (s : State) : (raiseSync e s).seekCount = s.seekCount := rfl
@[simp] theorem raiseSync_garbageCount (e : SyncEvent) (s : State) : (raiseSync e s).garbageCount = s.garbageCount := rfl
@[simp] theorem raiseSync_hdrBuf (e : SyncEvent) (s : State) : (raiseSync e s).hdrBuf = s.hdrBuf := rfl
@[simp] theorem raiseSync_hVersion (e : SyncEvent) (s : State) : (raiseSync e s).hVersion = s.hVersion := rfl
@[simp] theorem raiseSync_hType (e : SyncEvent) (s : State) : (raiseSync e s).hType = s.hType := rfl
@[simp] theorem raiseSync_hSec (e : SyncEvent) (s : State) : (raiseSync e s).hSec = s.hSec := rfl
@[simp] theorem raiseSync_hAppid (e : SyncEvent) (s : State) : (raiseSync e s).hAppid = s.hAppid := rfl
@[simp] theorem raiseSync_hGflags (e : SyncEvent) (s : State) : (raiseSync e s).hGflags = s.hGflags := rfl
@[simp] theorem raiseSync_hSeq (e : SyncEvent) (s : State) : (raiseSync e s).hSeq = s.hSeq := rfl
@[simp] theorem raiseSync_hDlen (e : SyncEvent) (s : State) : (raiseSync e s).hDlen = s.hDlen := rfl
@[simp] theorem raiseSync_bodyBuf (e : SyncEvent) (s : State) : (raiseSync e s).bodyBuf = s.bodyBuf := rfl
@[simp] theorem raiseSync_partialAtEnd (e : SyncEvent) (s : State) : (raiseSync e s).partialAtEnd = s.partialAtEnd := rfl
@[simp] theorem raiseSync_frameOut (e : SyncEvent) (s : State) : (raiseSync e s).frameOut = s.frameOut := rfl
@[simp] theorem raiseSync_syncDiag (e : SyncEvent) (s : State) : (raiseSync e s).syncDiag = s.syncDiag ++ [e] := rfl
@[simp] theorem raiseSync_acc (e : SyncEvent) (s : State) : (raiseSync e s).acc = s.acc := rfl
@[simp] theorem raiseSync_lastAppid (e : SyncEvent) (s : State) : (raiseSync e s).lastAppid = s.lastAppid := rfl
@[simp] theorem raiseSync_startSeq (e : SyncEvent) (s : State) : (raiseSync e s).startSeq = s.startSeq := rfl
@[simp] theorem raiseSync_singleFragment (e : SyncEvent) (s : State) : (raiseSync e s).singleFragment = s.singleFragment := rfl
@[simp] theorem raiseSync_packetOut (e : SyncEvent) (s : State) : (raiseSync e s).packetOut = s.packetOut := rfl
@[simp] theorem raiseSync_colDiag (e : SyncEvent) (s : State) : (raiseSync e s).colDiag = s.colDiag := rfl
@[simp] theorem raiseSync_colDone (e : SyncEvent) (s : State) : (raiseSync e s).colDone = s.colDone := rfl
@[simp] theorem raiseSync_residualAtEnd (e : SyncEvent) (s : State) : (raiseSync e s).residualAtEnd = s.residualAtEnd := rfl
@[simp] theorem raiseSync_cfg (e : SyncEvent) (s : State) : (raiseSync e s).cfg = s.cfg := rfl
@[simp] theorem raiseSync_cmdIn (e : SyncEvent) (s : State) : (raiseSync e s).cmdIn = s.cmdIn := rfl
@[simp] theorem raiseSync_result (e : SyncEvent) (s : State) : (raiseSync e s).result = s.result := rfl
@[simp] theorem raiseSync_delivered (e : SyncEvent) (s : State) : (raiseSync e s).delivered = s.delivered := rfl

/-! ### raiseCol -/

@[simp] theorem raiseCol_syncState (e : ColEvent) (s : State) : (raiseCol e s).syncState = s.syncState := rfl
@[simp] theorem raiseCol_window (e : ColEvent) (s : State) : (raiseCol e s).window = s.window := rfl
@[simp] theorem raiseCol_seekCount (e : ColEvent) (s : State) : (raiseCol e s).seekCount = s.seekCount := rfl
@[simp] theorem raiseCol_garbageCount (e : ColEvent) (s : State) : (raiseCol e s).garbageCount = s.garbageCount := rfl
@[simp] theorem raiseCol_hdrBuf (e : ColEvent) (s : State) : (raiseCol e s).hdrBuf = s.hdrBuf := rfl
@[simp] theorem raiseCol_hVersion (e : ColEvent) (s : State) : (raiseCol e s).hVersion = s.hVersion := rfl
@[simp] theorem raiseCol_hType (e : ColEvent) (s : State) : (raiseCol e s).hType = s.hType := rfl
@[simp] theorem raiseCol_hSec (e : ColEvent) (s : State) : (raiseCol e s).hSec = s.hSec := rfl
@[simp] theorem raiseCol_hAppid (e : ColEvent) (s : State) : (raiseCol e s).hAppid = s.hAppid := rfl
@[simp] theorem raiseCol_hGflags (e : ColEvent) (s : State) : (raiseCol e s).hGflags = s.hGflags := rfl
@[simp] theorem raiseCol_hSeq (e : ColEvent) (s : State) : (raiseCol e s).hSeq = s.hSeq := rfl
@[simp] theorem raiseCol_hDlen (e : ColEvent) (s : State) : (raiseCol e s).hDlen = s.hDlen := rfl
@[simp] theorem raiseCol_bodyBuf (e : ColEvent) (s : State) : (raiseCol e s).bodyBuf = s.bodyBuf := rfl
@[simp] theorem raiseCol_partialAtEnd (e : ColEvent) (s : State) : (raiseCol e s).partialAtEnd = s.partialAtEnd := rfl
@[simp] theorem raiseCol_frameOut (e : ColEvent) (s : State) : (raiseCol e s).frameOut = s.frameOut := rfl
@[simp] theorem raiseCol_syncDiag (e : ColEvent) (s : State) : (raiseCol e s).syncDiag = s.syncDiag := rfl
@[simp] theorem raiseCol_acc (e : ColEvent) (s : State) : (raiseCol e s).acc = s.acc := rfl
@[simp] theorem raiseCol_lastAppid (e : ColEvent) (s : State) : (raiseCol e s).lastAppid = s.lastAppid := rfl
@[simp] theorem raiseCol_startSeq (e : ColEvent) (s : State) : (raiseCol e s).startSeq = s.startSeq := rfl
@[simp] theorem raiseCol_singleFragment (e : ColEvent) (s : State) : (raiseCol e s).singleFragment = s.singleFragment := rfl
@[simp] theorem raiseCol_packetOut (e : ColEvent) (s : State) : (raiseCol e s).packetOut = s.packetOut := rfl
@[simp] theorem raiseCol_colDiag (e : ColEvent) (s : State) : (raiseCol e s).colDiag = s.colDiag ++ [e] := rfl
@[simp] theorem raiseCol_colDone (e : ColEvent) (s : State) : (raiseCol e s).colDone = s.colDone := rfl
@[simp] theorem raiseCol_residualAtEnd (e : ColEvent) (s : State) : (raiseCol e s).residualAtEnd = s.residualAtEnd := rfl
@[simp] theorem raiseCol_cfg (e : ColEvent) (s : State) : (raiseCol e s).cfg = s.cfg := rfl
@[simp] theorem raiseCol_cmdIn (e : ColEvent) (s : State) : (raiseCol e s).cmdIn = s.cmdIn := rfl
@[simp] theorem raiseCol_result (e : ColEvent) (s : State) : (raiseCol e s).result = s.result := rfl
@[simp] theorem raiseCol_delivered (e : ColEvent) (s : State) : (raiseCol e s).delivered = s.delivered := rfl

/-! ### emitFrame -/

@[simp] theorem emitFrame_syncState (f : RawFrame) (s : State) : (emitFrame f s).syncState = s.syncState := rfl
@[simp] theorem emitFrame_window (f : RawFrame) (s : State) : (emitFrame f s).window = s.window := rfl
@[simp] theorem emitFrame_seekCount (f : RawFrame) (s : State) : (emitFrame f s).seekCount = s.seekCount := rfl
@[simp] theorem emitFrame_garbageCount (f : RawFrame) (s : State) : (emitFrame f s).garbageCount = s.garbageCount := rfl
@[simp] theorem emitFrame_hdrBuf (f : RawFrame) (s : State) : (emitFrame f s).hdrBuf = s.hdrBuf := rfl
@[simp] theorem emitFrame_hVersion (f : RawFrame) (s : State) : (emitFrame f s).hVersion = s.hVersion := rfl
@[simp] theorem emitFrame_hType (f : RawFrame) (s : State) : (emitFrame f s).hType = s.hType := rfl
@[simp] theorem emitFrame_hSec (f : RawFrame) (s : State) : (emitFrame f s).hSec = s.hSec := rfl
@[simp] theorem emitFrame_hAppid (f : RawFrame) (s : State) : (emitFrame f s).hAppid = s.hAppid := rfl
@[simp] theorem emitFrame_hGflags (f : RawFrame) (s : State) : (emitFrame f s).hGflags = s.hGflags := rfl
@[simp] theorem emitFrame_hSeq (f : RawFrame) (s : State) : (emitFrame f s).hSeq = s.hSeq := rfl
@[simp] theorem emitFrame_hDlen (f : RawFrame) (s : State) : (emitFrame f s).hDlen = s.hDlen := rfl
@[simp] theorem emitFrame_bodyBuf (f : RawFrame) (s : State) : (emitFrame f s).bodyBuf = s.bodyBuf := rfl
@[simp] theorem emitFrame_partialAtEnd (f : RawFrame) (s : State) : (emitFrame f s).partialAtEnd = s.partialAtEnd := rfl
@[simp] theorem emitFrame_frameOut (f : RawFrame) (s : State) : (emitFrame f s).frameOut = s.frameOut ++ [f] := rfl
@[simp] theorem emitFrame_syncDiag (f : RawFrame) (s : State) : (emitFrame f s).syncDiag = s.syncDiag := rfl
@[simp] theorem emitFrame_acc (f : RawFrame) (s : State) : (emitFrame f s).acc = s.acc := rfl
@[simp] theorem emitFrame_lastAppid (f : RawFrame) (s : State) : (emitFrame f s).lastAppid = s.lastAppid := rfl
@[simp] theorem emitFrame_startSeq (f : RawFrame) (s : State) : (emitFrame f s).startSeq = s.startSeq := rfl
@[simp] theorem emitFrame_singleFragment (f : RawFrame) (s : State) : (emitFrame f s).singleFragment = s.singleFragment := rfl
@[simp] theorem emitFrame_packetOut (f : RawFrame) (s : State) : (emitFrame f s).packetOut = s.packetOut := rfl
@[simp] theorem emitFrame_colDiag (f : RawFrame) (s : State) : (emitFrame f s).colDiag = s.colDiag := rfl
@[simp] theorem emitFrame_colDone (f : RawFrame) (s : State) : (emitFrame f s).colDone = s.colDone := rfl
@[simp] theorem emitFrame_residualAtEnd (f : RawFrame) (s : State) : (emitFrame f s).residualAtEnd = s.residualAtEnd := rfl
@[simp] theorem emitFrame_cfg (f : RawFrame) (s : State) : (emitFrame f s).cfg = s.cfg := rfl
@[simp] theorem emitFrame_cmdIn (f : RawFrame) (s : State) : (emitFrame f s).cmdIn = s.cmdIn := rfl
@[simp] theorem emitFrame_result (f : RawFrame) (s : State) : (emitFrame f s).result = s.result := rfl
@[simp] theorem emitFrame_delivered (f : RawFrame) (s : State) : (emitFrame f s).delivered = s.delivered := rfl

/-! ### emitPacket -/

@[simp] theorem emitPacket_syncState (p : LogicalPacket) (s : State) : (emitPacket p s).syncState = s.syncState := rfl
@[simp] theorem emitPacket_window (p : LogicalPacket) (s : State) : (emitPacket p s).window = s.window := rfl
@[simp] theorem emitPacket_seekCount (p : LogicalPacket) (s : State) : (emitPacket p s).seekCount = s.seekCount := rfl
@[simp] theorem emitPacket_garbageCount (p : LogicalPacket) (s : State) : (emitPacket p s).garbageCount = s.garbageCount := rfl
@[simp] theorem emitPacket_hdrBuf (p : LogicalPacket) (s : State) : (emitPacket p s).hdrBuf = s.hdrBuf := rfl
@[simp] theorem emitPacket_hVersion (p : LogicalPacket) (s : State) : (emitPacket p s).hVersion = s.hVersion := rfl
@[simp] theorem emitPacket_hType (p : LogicalPacket) (s : State) : (emitPacket p s).hType = s.hType := rfl
@[simp] theorem emitPacket_hSec (p : LogicalPacket) (s : State) : (emitPacket p s).hSec = s.hSec := rfl
@[simp] theorem emitPacket_hAppid (p : LogicalPacket) (s : State) : (emitPacket p s).hAppid = s.hAppid := rfl
@[simp] theorem emitPacket_hGflags (p : LogicalPacket) (s : State) : (emitPacket p s).hGflags = s.hGflags := rfl
@[simp] theorem emitPacket_hSeq (p : LogicalPacket) (s : State) : (emitPacket p s).hSeq = s.hSeq := rfl
@[simp] theorem emitPacket_hDlen (p : LogicalPacket) (s : State) : (emitPacket p s).hDlen = s.hDlen := rfl
@[simp] theorem emitPacket_bodyBuf (p : LogicalPacket) (s : State) : (emitPacket p s).bodyBuf = s.bodyBuf := rfl
@[simp] theorem emitPacket_partialAtEnd (p : LogicalPacket) (s : State) : (emitPacket p s).partialAtEnd = s.partialAtEnd := rfl
@[simp] theorem emitPacket_frameOut (p : LogicalPacket) (s : State) : (emitPacket p s).frameOut = s.frameOut := rfl
@[simp] theorem emitPacket_syncDiag (p : LogicalPacket) (s : State) : (emitPacket p s).syncDiag = s.syncDiag := rfl
@[simp] theorem emitPacket_acc (p : LogicalPacket) (s : State) : (emitPacket p s).acc = s.acc := rfl
@[simp] theorem emitPacket_lastAppid (p : LogicalPacket) (s : State) : (emitPacket p s).lastAppid = s.lastAppid := rfl
@[simp] theorem emitPacket_startSeq (p : LogicalPacket) (s : State) : (emitPacket p s).startSeq = s.startSeq := rfl
@[simp] theorem emitPacket_singleFragment (p : LogicalPacket) (s : State) : (emitPacket p s).singleFragment = s.singleFragment := rfl
@[simp] theorem emitPacket_packetOut (p : LogicalPacket) (s : State) : (emitPacket p s).packetOut = s.packetOut ++ [p] := rfl
@[simp] theorem emitPacket_colDiag (p : LogicalPacket) (s : State) : (emitPacket p s).colDiag = s.colDiag := rfl
@[simp] theorem emitPacket_colDone (p : LogicalPacket) (s : State) : (emitPacket p s).colDone = s.colDone := rfl
@[simp] theorem emitPacket_residualAtEnd (p : LogicalPacket) (s : State) : (emitPacket p s).residualAtEnd = s.residualAtEnd := rfl
@[simp] theorem emitPacket_cfg (p : LogicalPacket) (s : State) : (emitPacket p s).cfg = s.cfg := rfl
@[simp] theorem emitPacket_cmdIn (p : LogicalPacket) (s : State) : (emitPacket p s).cmdIn = s.cmdIn := rfl
@[simp] theorem emitPacket_result (p : LogicalPacket) (s : State) : (emitPacket p s).result = s.result := rfl
@[simp] theorem emitPacket_delivered (p : LogicalPacket) (s : State) : (emitPacket p s).delivered = s.delivered := rfl

/-! ### clearSeek -/

@[simp] theorem clearSeek_syncState (s : State) : (clearSeek s).syncState = s.syncState := rfl
@[simp] theorem clearSeek_window (s : State) : (clearSeek s).window = 0x0000#16 := rfl
@[simp] theorem clearSeek_seekCount (s : State) : (clearSeek s).seekCount = 0 := rfl
@[simp] theorem clearSeek_garbageCount (s : State) : (clearSeek s).garbageCount = s.garbageCount := rfl
@[simp] theorem clearSeek_hdrBuf (s : State) : (clearSeek s).hdrBuf = s.hdrBuf := rfl
@[simp] theorem clearSeek_hVersion (s : State) : (clearSeek s).hVersion = s.hVersion := rfl
@[simp] theorem clearSeek_hType (s : State) : (clearSeek s).hType = s.hType := rfl
@[simp] theorem clearSeek_hSec (s : State) : (clearSeek s).hSec = s.hSec := rfl
@[simp] theorem clearSeek_hAppid (s : State) : (clearSeek s).hAppid = s.hAppid := rfl
@[simp] theorem clearSeek_hGflags (s : State) : (clearSeek s).hGflags = s.hGflags := rfl
@[simp] theorem clearSeek_hSeq (s : State) : (clearSeek s).hSeq = s.hSeq := rfl
@[simp] theorem clearSeek_hDlen (s : State) : (clearSeek s).hDlen = s.hDlen := rfl
@[simp] theorem clearSeek_bodyBuf (s : State) : (clearSeek s).bodyBuf = s.bodyBuf := rfl
@[simp] theorem clearSeek_partialAtEnd (s : State) : (clearSeek s).partialAtEnd = s.partialAtEnd := rfl
@[simp] theorem clearSeek_frameOut (s : State) : (clearSeek s).frameOut = s.frameOut := rfl
@[simp] theorem clearSeek_syncDiag (s : State) : (clearSeek s).syncDiag = s.syncDiag := rfl
@[simp] theorem clearSeek_acc (s : State) : (clearSeek s).acc = s.acc := rfl
@[simp] theorem clearSeek_lastAppid (s : State) : (clearSeek s).lastAppid = s.lastAppid := rfl
@[simp] theorem clearSeek_startSeq (s : State) : (clearSeek s).startSeq = s.startSeq := rfl
@[simp] theorem clearSeek_singleFragment (s : State) : (clearSeek s).singleFragment = s.singleFragment := rfl
@[simp] theorem clearSeek_packetOut (s : State) : (clearSeek s).packetOut = s.packetOut := rfl
@[simp] theorem clearSeek_colDiag (s : State) : (clearSeek s).colDiag = s.colDiag := rfl
@[simp] theorem clearSeek_colDone (s : State) : (clearSeek s).colDone = s.colDone := rfl
@[simp] theorem clearSeek_residualAtEnd (s : State) : (clearSeek s).residualAtEnd = s.residualAtEnd := rfl
@[simp] theorem clearSeek_cfg (s : State) : (clearSeek s).cfg = s.cfg := rfl
@[simp] theorem clearSeek_cmdIn (s : State) : (clearSeek s).cmdIn = s.cmdIn := rfl
@[simp] theorem clearSeek_result (s : State) : (clearSeek s).result = s.result := rfl
@[simp] theorem clearSeek_delivered (s : State) : (clearSeek s).delivered = s.delivered := rfl

/-! ### deliver -/

@[simp] theorem deliver_syncState (r : Result) (s : State) : (deliver r s).syncState = s.syncState := rfl
@[simp] theorem deliver_window (r : Result) (s : State) : (deliver r s).window = s.window := rfl
@[simp] theorem deliver_seekCount (r : Result) (s : State) : (deliver r s).seekCount = s.seekCount := rfl
@[simp] theorem deliver_garbageCount (r : Result) (s : State) : (deliver r s).garbageCount = s.garbageCount := rfl
@[simp] theorem deliver_hdrBuf (r : Result) (s : State) : (deliver r s).hdrBuf = s.hdrBuf := rfl
@[simp] theorem deliver_hVersion (r : Result) (s : State) : (deliver r s).hVersion = s.hVersion := rfl
@[simp] theorem deliver_hType (r : Result) (s : State) : (deliver r s).hType = s.hType := rfl
@[simp] theorem deliver_hSec (r : Result) (s : State) : (deliver r s).hSec = s.hSec := rfl
@[simp] theorem deliver_hAppid (r : Result) (s : State) : (deliver r s).hAppid = s.hAppid := rfl
@[simp] theorem deliver_hGflags (r : Result) (s : State) : (deliver r s).hGflags = s.hGflags := rfl
@[simp] theorem deliver_hSeq (r : Result) (s : State) : (deliver r s).hSeq = s.hSeq := rfl
@[simp] theorem deliver_hDlen (r : Result) (s : State) : (deliver r s).hDlen = s.hDlen := rfl
@[simp] theorem deliver_bodyBuf (r : Result) (s : State) : (deliver r s).bodyBuf = s.bodyBuf := rfl
@[simp] theorem deliver_partialAtEnd (r : Result) (s : State) : (deliver r s).partialAtEnd = s.partialAtEnd := rfl
@[simp] theorem deliver_frameOut (r : Result) (s : State) : (deliver r s).frameOut = s.frameOut := rfl
@[simp] theorem deliver_syncDiag (r : Result) (s : State) : (deliver r s).syncDiag = s.syncDiag := rfl
@[simp] theorem deliver_acc (r : Result) (s : State) : (deliver r s).acc = s.acc := rfl
@[simp] theorem deliver_lastAppid (r : Result) (s : State) : (deliver r s).lastAppid = s.lastAppid := rfl
@[simp] theorem deliver_startSeq (r : Result) (s : State) : (deliver r s).startSeq = s.startSeq := rfl
@[simp] theorem deliver_singleFragment (r : Result) (s : State) : (deliver r s).singleFragment = s.singleFragment := rfl
@[simp] theorem deliver_packetOut (r : Result) (s : State) : (deliver r s).packetOut = s.packetOut := rfl
@[simp] theorem deliver_colDiag (r : Result) (s : State) : (deliver r s).colDiag = s.colDiag := rfl
@[simp] theorem deliver_colDone (r : Result) (s : State) : (deliver r s).colDone = s.colDone := rfl
@[simp] theorem deliver_residualAtEnd (r : Result) (s : State) : (deliver r s).residualAtEnd = s.residualAtEnd := rfl
@[simp] theorem deliver_cfg (r : Result) (s : State) : (deliver r s).cfg = s.cfg := rfl
@[simp] theorem deliver_cmdIn (r : Result) (s : State) : (deliver r s).cmdIn = s.cmdIn := rfl
@[simp] theorem deliver_result (r : Result) (s : State) : (deliver r s).result = r := rfl
@[simp] theorem deliver_delivered (r : Result) (s : State) : (deliver r s).delivered = s.delivered := rfl

/-! ### appendPayload -/

@[simp] theorem appendPayload_syncState (f : RawFrame) (s : State) : (appendPayload f s).syncState = s.syncState := rfl
@[simp] theorem appendPayload_window (f : RawFrame) (s : State) : (appendPayload f s).window = s.window := rfl
@[simp] theorem appendPayload_seekCount (f : RawFrame) (s : State) : (appendPayload f s).seekCount = s.seekCount := rfl
@[simp] theorem appendPayload_garbageCount (f : RawFrame) (s : State) : (appendPayload f s).garbageCount = s.garbageCount := rfl
@[simp] theorem appendPayload_hdrBuf (f : RawFrame) (s : State) : (appendPayload f s).hdrBuf = s.hdrBuf := rfl
@[simp] theorem appendPayload_hVersion (f : RawFrame) (s : State) : (appendPayload f s).hVersion = s.hVersion := rfl
@[simp] theorem appendPayload_hType (f : RawFrame) (s : State) : (appendPayload f s).hType = s.hType := rfl
@[simp] theorem appendPayload_hSec (f : RawFrame) (s : State) : (appendPayload f s).hSec = s.hSec := rfl
@[simp] theorem appendPayload_hAppid (f : RawFrame) (s : State) : (appendPayload f s).hAppid = s.hAppid := rfl
@[simp] theorem appendPayload_hGflags (f : RawFrame) (s : State) : (appendPayload f s).hGflags = s.hGflags := rfl
@[simp] theorem appendPayload_hSeq (f : RawFrame) (s : State) : (appendPayload f s).hSeq = s.hSeq := rfl
@[simp] theorem appendPayload_hDlen (f : RawFrame) (s : State) : (appendPayload f s).hDlen = s.hDlen := rfl
@[simp] theorem appendPayload_bodyBuf (f : RawFrame) (s : State) : (appendPayload f s).bodyBuf = s.bodyBuf := rfl
@[simp] theorem appendPayload_partialAtEnd (f : RawFrame) (s : State) : (appendPayload f s).partialAtEnd = s.partialAtEnd := rfl
@[simp] theorem appendPayload_frameOut (f : RawFrame) (s : State) : (appendPayload f s).frameOut = s.frameOut := rfl
@[simp] theorem appendPayload_syncDiag (f : RawFrame) (s : State) : (appendPayload f s).syncDiag = s.syncDiag := rfl
@[simp] theorem appendPayload_acc (f : RawFrame) (s : State) : (appendPayload f s).acc = s.acc ++ swap16 f.payload := rfl
@[simp] theorem appendPayload_lastAppid (f : RawFrame) (s : State) : (appendPayload f s).lastAppid = f.appid := rfl
@[simp] theorem appendPayload_startSeq (f : RawFrame) (s : State) : (appendPayload f s).startSeq = s.startSeq := rfl
@[simp] theorem appendPayload_singleFragment (f : RawFrame) (s : State) : (appendPayload f s).singleFragment = s.singleFragment := rfl
@[simp] theorem appendPayload_packetOut (f : RawFrame) (s : State) : (appendPayload f s).packetOut = s.packetOut := rfl
@[simp] theorem appendPayload_colDiag (f : RawFrame) (s : State) : (appendPayload f s).colDiag = s.colDiag := rfl
@[simp] theorem appendPayload_colDone (f : RawFrame) (s : State) : (appendPayload f s).colDone = s.colDone := rfl
@[simp] theorem appendPayload_residualAtEnd (f : RawFrame) (s : State) : (appendPayload f s).residualAtEnd = s.residualAtEnd := rfl
@[simp] theorem appendPayload_cfg (f : RawFrame) (s : State) : (appendPayload f s).cfg = s.cfg := rfl
@[simp] theorem appendPayload_cmdIn (f : RawFrame) (s : State) : (appendPayload f s).cmdIn = s.cmdIn := rfl
@[simp] theorem appendPayload_result (f : RawFrame) (s : State) : (appendPayload f s).result = s.result := rfl
@[simp] theorem appendPayload_delivered (f : RawFrame) (s : State) : (appendPayload f s).delivered = s.delivered := rfl

/-! ### endPartial -/

@[simp] theorem endPartial_syncState (s : State) : (endPartial s).syncState = s.syncState := rfl
@[simp] theorem endPartial_window (s : State) : (endPartial s).window = s.window := rfl
@[simp] theorem endPartial_seekCount (s : State) : (endPartial s).seekCount = s.seekCount := rfl
@[simp] theorem endPartial_garbageCount (s : State) : (endPartial s).garbageCount = s.garbageCount := rfl
@[simp] theorem endPartial_hdrBuf (s : State) : (endPartial s).hdrBuf = s.hdrBuf := rfl
@[simp] theorem endPartial_hVersion (s : State) : (endPartial s).hVersion = s.hVersion := rfl
@[simp] theorem endPartial_hType (s : State) : (endPartial s).hType = s.hType := rfl
@[simp] theorem endPartial_hSec (s : State) : (endPartial s).hSec = s.hSec := rfl
@[simp] theorem endPartial_hAppid (s : State) : (endPartial s).hAppid = s.hAppid := rfl
@[simp] theorem endPartial_hGflags (s : State) : (endPartial s).hGflags = s.hGflags := rfl
@[simp] theorem endPartial_hSeq (s : State) : (endPartial s).hSeq = s.hSeq := rfl
@[simp] theorem endPartial_hDlen (s : State) : (endPartial s).hDlen = s.hDlen := rfl
@[simp] theorem endPartial_bodyBuf (s : State) : (endPartial s).bodyBuf = s.bodyBuf := rfl
@[simp] theorem endPartial_partialAtEnd (s : State) : (endPartial s).partialAtEnd = (s.partialAtEnd || endsInsideFrame s.syncState) := rfl
@[simp] theorem endPartial_frameOut (s : State) : (endPartial s).frameOut = s.frameOut := rfl
@[simp] theorem endPartial_syncDiag (s : State) : (endPartial s).syncDiag = s.syncDiag := rfl
@[simp] theorem endPartial_acc (s : State) : (endPartial s).acc = s.acc := rfl
@[simp] theorem endPartial_lastAppid (s : State) : (endPartial s).lastAppid = s.lastAppid := rfl
@[simp] theorem endPartial_startSeq (s : State) : (endPartial s).startSeq = s.startSeq := rfl
@[simp] theorem endPartial_singleFragment (s : State) : (endPartial s).singleFragment = s.singleFragment := rfl
@[simp] theorem endPartial_packetOut (s : State) : (endPartial s).packetOut = s.packetOut := rfl
@[simp] theorem endPartial_colDiag (s : State) : (endPartial s).colDiag = s.colDiag := rfl
@[simp] theorem endPartial_colDone (s : State) : (endPartial s).colDone = s.colDone := rfl
@[simp] theorem endPartial_residualAtEnd (s : State) : (endPartial s).residualAtEnd = s.residualAtEnd := rfl
@[simp] theorem endPartial_cfg (s : State) : (endPartial s).cfg = s.cfg := rfl
@[simp] theorem endPartial_cmdIn (s : State) : (endPartial s).cmdIn = s.cmdIn := rfl
@[simp] theorem endPartial_result (s : State) : (endPartial s).result = s.result := rfl
@[simp] theorem endPartial_delivered (s : State) : (endPartial s).delivered = s.delivered := rfl

/-! ### enterDone -/

@[simp] theorem enterDone_syncState (s : State) : (enterDone s).syncState = .done := rfl
@[simp] theorem enterDone_window (s : State) : (enterDone s).window = 0x0000#16 := rfl
@[simp] theorem enterDone_seekCount (s : State) : (enterDone s).seekCount = s.seekCount := rfl
@[simp] theorem enterDone_garbageCount (s : State) : (enterDone s).garbageCount = s.garbageCount := rfl
@[simp] theorem enterDone_hdrBuf (s : State) : (enterDone s).hdrBuf = [] := rfl
@[simp] theorem enterDone_hVersion (s : State) : (enterDone s).hVersion = s.hVersion := rfl
@[simp] theorem enterDone_hType (s : State) : (enterDone s).hType = s.hType := rfl
@[simp] theorem enterDone_hSec (s : State) : (enterDone s).hSec = s.hSec := rfl
@[simp] theorem enterDone_hAppid (s : State) : (enterDone s).hAppid = s.hAppid := rfl
@[simp] theorem enterDone_hGflags (s : State) : (enterDone s).hGflags = s.hGflags := rfl
@[simp] theorem enterDone_hSeq (s : State) : (enterDone s).hSeq = s.hSeq := rfl
@[simp] theorem enterDone_hDlen (s : State) : (enterDone s).hDlen = s.hDlen := rfl
@[simp] theorem enterDone_bodyBuf (s : State) : (enterDone s).bodyBuf = [] := rfl
@[simp] theorem enterDone_partialAtEnd (s : State) : (enterDone s).partialAtEnd = s.partialAtEnd := rfl
@[simp] theorem enterDone_frameOut (s : State) : (enterDone s).frameOut = s.frameOut := rfl
@[simp] theorem enterDone_syncDiag (s : State) : (enterDone s).syncDiag = s.syncDiag := rfl
@[simp] theorem enterDone_acc (s : State) : (enterDone s).acc = s.acc := rfl
@[simp] theorem enterDone_lastAppid (s : State) : (enterDone s).lastAppid = s.lastAppid := rfl
@[simp] theorem enterDone_startSeq (s : State) : (enterDone s).startSeq = s.startSeq := rfl
@[simp] theorem enterDone_singleFragment (s : State) : (enterDone s).singleFragment = s.singleFragment := rfl
@[simp] theorem enterDone_packetOut (s : State) : (enterDone s).packetOut = s.packetOut := rfl
@[simp] theorem enterDone_colDiag (s : State) : (enterDone s).colDiag = s.colDiag := rfl
@[simp] theorem enterDone_colDone (s : State) : (enterDone s).colDone = s.colDone := rfl
@[simp] theorem enterDone_residualAtEnd (s : State) : (enterDone s).residualAtEnd = s.residualAtEnd := rfl
@[simp] theorem enterDone_cfg (s : State) : (enterDone s).cfg = s.cfg := rfl
@[simp] theorem enterDone_cmdIn (s : State) : (enterDone s).cmdIn = s.cmdIn := rfl
@[simp] theorem enterDone_result (s : State) : (enterDone s).result = s.result := rfl
@[simp] theorem enterDone_delivered (s : State) : (enterDone s).delivered = s.delivered := rfl

/-! ### resetUnits -/

@[simp] theorem resetUnits_syncState (s : State) : (resetUnits s).syncState = State.reset.syncState := rfl
@[simp] theorem resetUnits_window (s : State) : (resetUnits s).window = State.reset.window := rfl
@[simp] theorem resetUnits_seekCount (s : State) : (resetUnits s).seekCount = State.reset.seekCount := rfl
@[simp] theorem resetUnits_garbageCount (s : State) : (resetUnits s).garbageCount = State.reset.garbageCount := rfl
@[simp] theorem resetUnits_hdrBuf (s : State) : (resetUnits s).hdrBuf = State.reset.hdrBuf := rfl
@[simp] theorem resetUnits_hVersion (s : State) : (resetUnits s).hVersion = State.reset.hVersion := rfl
@[simp] theorem resetUnits_hType (s : State) : (resetUnits s).hType = State.reset.hType := rfl
@[simp] theorem resetUnits_hSec (s : State) : (resetUnits s).hSec = State.reset.hSec := rfl
@[simp] theorem resetUnits_hAppid (s : State) : (resetUnits s).hAppid = State.reset.hAppid := rfl
@[simp] theorem resetUnits_hGflags (s : State) : (resetUnits s).hGflags = State.reset.hGflags := rfl
@[simp] theorem resetUnits_hSeq (s : State) : (resetUnits s).hSeq = State.reset.hSeq := rfl
@[simp] theorem resetUnits_hDlen (s : State) : (resetUnits s).hDlen = State.reset.hDlen := rfl
@[simp] theorem resetUnits_bodyBuf (s : State) : (resetUnits s).bodyBuf = State.reset.bodyBuf := rfl
@[simp] theorem resetUnits_partialAtEnd (s : State) : (resetUnits s).partialAtEnd = State.reset.partialAtEnd := rfl
@[simp] theorem resetUnits_frameOut (s : State) : (resetUnits s).frameOut = State.reset.frameOut := rfl
@[simp] theorem resetUnits_syncDiag (s : State) : (resetUnits s).syncDiag = State.reset.syncDiag := rfl
@[simp] theorem resetUnits_acc (s : State) : (resetUnits s).acc = State.reset.acc := rfl
@[simp] theorem resetUnits_lastAppid (s : State) : (resetUnits s).lastAppid = State.reset.lastAppid := rfl
@[simp] theorem resetUnits_startSeq (s : State) : (resetUnits s).startSeq = State.reset.startSeq := rfl
@[simp] theorem resetUnits_singleFragment (s : State) : (resetUnits s).singleFragment = State.reset.singleFragment := rfl
@[simp] theorem resetUnits_packetOut (s : State) : (resetUnits s).packetOut = State.reset.packetOut := rfl
@[simp] theorem resetUnits_colDiag (s : State) : (resetUnits s).colDiag = State.reset.colDiag := rfl
@[simp] theorem resetUnits_colDone (s : State) : (resetUnits s).colDone = State.reset.colDone := rfl
@[simp] theorem resetUnits_residualAtEnd (s : State) : (resetUnits s).residualAtEnd = State.reset.residualAtEnd := rfl
@[simp] theorem resetUnits_cfg (s : State) : (resetUnits s).cfg = s.cfg := rfl
@[simp] theorem resetUnits_cmdIn (s : State) : (resetUnits s).cmdIn = s.cmdIn := rfl
@[simp] theorem resetUnits_result (s : State) : (resetUnits s).result = s.result := rfl
@[simp] theorem resetUnits_delivered (s : State) : (resetUnits s).delivered = State.reset.delivered := rfl

/-! ### State.reset (R43) -/

@[simp] theorem reset_syncState : State.reset.syncState = .seekingSync := rfl
@[simp] theorem reset_window : State.reset.window = 0 := rfl
@[simp] theorem reset_seekCount : State.reset.seekCount = 0 := rfl
@[simp] theorem reset_garbageCount : State.reset.garbageCount = 0 := rfl
@[simp] theorem reset_hdrBuf : State.reset.hdrBuf = [] := rfl
@[simp] theorem reset_hVersion : State.reset.hVersion = 0 := rfl
@[simp] theorem reset_hType : State.reset.hType = 0 := rfl
@[simp] theorem reset_hSec : State.reset.hSec = 0 := rfl
@[simp] theorem reset_hAppid : State.reset.hAppid = 0 := rfl
@[simp] theorem reset_hGflags : State.reset.hGflags = 0 := rfl
@[simp] theorem reset_hSeq : State.reset.hSeq = 0 := rfl
@[simp] theorem reset_hDlen : State.reset.hDlen = 0 := rfl
@[simp] theorem reset_bodyBuf : State.reset.bodyBuf = [] := rfl
@[simp] theorem reset_partialAtEnd : State.reset.partialAtEnd = false := rfl
@[simp] theorem reset_frameOut : State.reset.frameOut = [] := rfl
@[simp] theorem reset_syncDiag : State.reset.syncDiag = [] := rfl
@[simp] theorem reset_acc : State.reset.acc = [] := rfl
@[simp] theorem reset_lastAppid : State.reset.lastAppid = 0 := rfl
@[simp] theorem reset_startSeq : State.reset.startSeq = 0 := rfl
@[simp] theorem reset_singleFragment : State.reset.singleFragment = true := rfl
@[simp] theorem reset_packetOut : State.reset.packetOut = [] := rfl
@[simp] theorem reset_colDiag : State.reset.colDiag = [] := rfl
@[simp] theorem reset_colDone : State.reset.colDone = false := rfl
@[simp] theorem reset_residualAtEnd : State.reset.residualAtEnd = false := rfl
@[simp] theorem reset_cfg : State.reset.cfg = Config.default := rfl
@[simp] theorem reset_cmdIn : State.reset.cmdIn = [] := rfl
@[simp] theorem reset_result : State.reset.result = .none := rfl
@[simp] theorem reset_delivered : State.reset.delivered = 0 := rfl

end Sys2Proof.Machine
end

