-- ==== Sys2Proof/Laws/Ops.lean ====
section
/-! SUPPORT. For each shared operation, once, everything it can do: the closed form of what it answers. Later proofs
cite these instead of unfolding the operation. -/

namespace Sys2Proof.Machine

/-! ### Counters and window -/

theorem satAdd_lt (w x y : Nat) : satAdd w x y < 2 ^ w := by
  have := Nat.two_pow_pos w
  unfold satAdd; omega

theorem le_satAdd {w x : Nat} (y : Nat) (h : x < 2 ^ w) : x ≤ satAdd w x y := by
  unfold satAdd; omega

theorem satAdd_of_lt {w x y : Nat} (h : x + y < 2 ^ w) : satAdd w x y = x + y := by
  unfold satAdd; omega

/-- The newer byte of the window is its low byte (R23). -/
theorem shiftWindow_low (w : Word16) (b : Byte) : (shiftWindow w b).extractLsb' 0 8 = b := by
  ext i hi
  have : i < 16 := by omega
  simp [shiftWindow, hi, this]

/-- The older byte of the window is its high byte (R23). -/
theorem shiftWindow_high (w : Word16) (b : Byte) : (shiftWindow w b).extractLsb' 8 8 = w.extractLsb' 0 8 := by
  ext i hi
  have : 8 + i < 16 := by omega
  simp [shiftWindow, this, BitVec.getLsbD_eq_getElem (show i < 16 by omega)]

/-! ### Reporting garbage -/

theorem reportGarbage_eq (g : Nat) (s : State) :
    reportGarbage g s =
      { s with garbageCount := satAdd s.cfg.garbageWidth s.garbageCount g
               syncDiag := s.syncDiag ++ if g = 0 then [] else [.syncLoss g] } := by
  unfold reportGarbage raiseSync
  split <;> simp [*]

/-! ### Array operations of the codecs -/

theorem arrayOp_next_iff (n : Nat) (r : Result) (s t : State) :
    arrayOp n r s = .next t ↔ admitsCount s.cfg n = true ∧ t = deliver r s := by
  unfold arrayOp
  split <;> simp [*, eq_comm]

theorem arrayOp_of_admits {n : Nat} {s : State} (r : Result) (h : admitsCount s.cfg n = true) :
    arrayOp n r s = .next (deliver r s) := by simp [arrayOp, h]

theorem arrayOp_of_not_admits {n : Nat} {s : State} (r : Result) (h : admitsCount s.cfg n = false) :
    arrayOp n r s = .refused .nMaxExceeded := by simp [arrayOp, h]

theorem admitsCount_unbounded {cfg : Config} (n : Nat) (h : cfg.nMax = none) : admitsCount cfg n = true := by
  simp [admitsCount, h]

theorem admitsAcc_unbounded {cfg : Config} (acc : List Byte) (k : Nat) (h : cfg.accMax = none) :
    admitsAcc cfg acc k = true := by
  simp [admitsAcc, h]

/-! ### Unit SYNC -/

theorem markerFound_eq (s : State) :
    markerFound s =
      let g := s.seekCount - 2
      { s with garbageCount := satAdd s.cfg.garbageWidth s.garbageCount g
               syncDiag := s.syncDiag ++ if g = 0 then [] else [.syncLoss g]
               window := 0, seekCount := 0, hdrBuf := [], syncState := .readingHeader } := by
  simp [markerFound, reportGarbage_eq, clearSeek]

theorem endSeek_eq (s : State) :
    endSeek s =
      { s with garbageCount := satAdd s.cfg.garbageWidth s.garbageCount s.seekCount
               syncDiag := s.syncDiag ++ if s.seekCount = 0 then [] else [.syncLoss s.seekCount]
               seekCount := 0 } := by
  simp [endSeek, reportGarbage_eq]

theorem reportMismatch_eq (f : RawFrame) (s : State) :
    reportMismatch f s =
      { s with syncDiag := s.syncDiag ++ if f.crcValid then [] else [.crcMismatch f.appid f.seq] } := by
  unfold reportMismatch raiseSync
  split <;> simp [*]

theorem completeFrame_eq (s : State) :
    completeFrame s =
      { s with frameOut := s.frameOut ++ [receivedFrame s]
               syncDiag := s.syncDiag ++
                 if (receivedFrame s).crcValid then [] else [.crcMismatch s.hAppid s.hSeq]
               window := 0, seekCount := 0, syncState := .seekingSync } := by
  simp [completeFrame, reportMismatch_eq, emitFrame, clearSeek, receivedFrame]

/-! ### Unit COL -/

theorem openRun_eq (f : RawFrame) (s : State) :
    openRun f s =
      { s with startSeq := if s.acc = [] then f.seq else s.startSeq
               colDiag := s.colDiag ++
                 if s.acc = [] ∨ f.appid = s.lastAppid then []
                 else [.applicationIdDrift s.lastAppid f.appid f.seq] } := by
  unfold openRun raiseCol
  by_cases h : s.acc = [] <;> by_cases h' : f.appid = s.lastAppid <;> simp [h, h']

theorem collate_of_terminal (f : RawFrame) (s : State) (h : isTerminal f.gflags = true) :
    collate f s =
      { openRun f s with
        lastAppid := f.appid
        packetOut := s.packetOut ++
          [{ startSeq := (openRun f s).startSeq, endSeq := f.seq, appid := f.appid,
             payload := s.acc ++ swap16 f.payload, singleFragment := s.singleFragment }]
        acc := [], singleFragment := true } := by
  simp [collate, closeRun, h, openRun_eq, appendPayload, emitPacket, currentPacket, singleFragmentAfter]

theorem collate_of_not_terminal (f : RawFrame) (s : State) (h : isTerminal f.gflags = false) :
    collate f s =
      { openRun f s with
        lastAppid := f.appid, acc := s.acc ++ swap16 f.payload, singleFragment := false } := by
  simp [collate, closeRun, h, openRun_eq, appendPayload, singleFragmentAfter]

end Sys2Proof.Machine
end

