-- ==== Sys2Proof/Laws/Exec.lean ====
section
/-! SUPPORT. What each meaning can do when it answers a next state (one inversion lemma per meaning), and what a step
can do. Proofs about `exec` and `step` start from these. -/

namespace Sys2Proof.Machine

/-! ### Unit SYNC -/

theorem execSyncPush_next {b : Byte} {s t : State} (h : execSyncPush b s = .next t) :
    (s.syncState = .seekingSync ∧ b = Config.filler ∧ t = skipFiller b s) ∨
    (s.syncState = .seekingSync ∧ b ≠ Config.filler ∧ t = seekByte b s) ∨
    (s.syncState = .readingHeader ∧ t = headerByte b s) ∨
    (s.syncState = .readingBody ∧ t = bodyByte b s) := by
  unfold execSyncPush at h
  split at h
  · cases h
  · by_cases hb : b = Config.filler
    · exact .inl ⟨‹_›, hb, by simpa [hb] using h.symm⟩
    · exact .inr (.inl ⟨‹_›, hb, by simpa [hb] using h.symm⟩)
  · exact .inr (.inr (.inl ⟨‹_›, by simpa using h.symm⟩))
  · exact .inr (.inr (.inr ⟨‹_›, by simpa using h.symm⟩))

/-- What a byte other than filler does in `SEEKING_SYNC` (R152, R153). -/
theorem seekByte_cases (b : Byte) (s : State) :
    (shiftWindow s.window b ≠ Config.syncMarker ∧
      seekByte b s = { s with window := shiftWindow s.window b, seekCount := satAdd s.cfg.garbageWidth s.seekCount 1 }) ∨
    (shiftWindow s.window b = Config.syncMarker ∧
      seekByte b s =
        markerFound { s with window := shiftWindow s.window b, seekCount := satAdd s.cfg.garbageWidth s.seekCount 1 }) := by
  unfold seekByte
  by_cases h : shiftWindow s.window b = Config.syncMarker <;> simp [h]

/-- What a byte does in `READING_HEADER` (R154, R155). -/
theorem headerByte_cases (b : Byte) (s : State) :
    (s.hdrBuf.length + 1 ≠ Config.headerLen ∧ headerByte b s = { s with hdrBuf := s.hdrBuf ++ [b] }) ∨
    (s.hdrBuf.length + 1 = Config.headerLen ∧
      headerByte b s =
        { parseHeader { s with hdrBuf := s.hdrBuf ++ [b] } with bodyBuf := [], syncState := .readingBody }) := by
  unfold headerByte
  by_cases h : s.hdrBuf.length + 1 = Config.headerLen <;> simp [h]

/-- What a byte does in `READING_BODY` (R156). -/
theorem bodyByte_cases (b : Byte) (s : State) :
    (s.bodyBuf.length + 1 ≠ bodyNeed s ∧ bodyByte b s = { s with bodyBuf := s.bodyBuf ++ [b] }) ∨
    (s.bodyBuf.length + 1 = bodyNeed s ∧
      bodyByte b s = completeFrame { s with bodyBuf := s.bodyBuf ++ [b] }) := by
  have hn : ∀ bs, bodyNeed { s with bodyBuf := bs } = bodyNeed s := fun _ => rfl
  unfold bodyByte
  by_cases h : s.bodyBuf.length + 1 = bodyNeed s <;> simp [h, hn]

theorem execSyncEnd_next {s t : State} (h : execSyncEnd s = .next t) :
    (s.syncState = .seekingSync ∧ t = enterDone (endSeek s)) ∨
    ((s.syncState = .readingHeader ∨ s.syncState = .readingBody) ∧ t = enterDone (endPartial s)) := by
  unfold execSyncEnd at h
  split at h
  · cases h
  · exact .inl ⟨‹_›, by simpa using h.symm⟩
  · exact .inr ⟨.inl ‹_›, by simpa using h.symm⟩
  · exact .inr ⟨.inr ‹_›, by simpa using h.symm⟩

/-! ### Unit COL -/

theorem execColPush_next {f : RawFrame} {s t : State} (h : execColPush f s = .next t) :
    s.colDone = false ∧ f.sized = true ∧ f.payload.length ≤ s.cfg.maxPayload ∧
      admitsAcc s.cfg s.acc f.payload.length = true ∧ t = collate f s := by
  unfold execColPush admitsPayload at h
  split at h
  · cases h
  · split at h
    · cases h
    · split at h
      · cases h
      · split at h
        · exact ⟨by simpa using ‹¬s.colDone = true›, by simpa using ‹¬f.sized = false›, of_decide_eq_true ‹_›,
            by simpa using ‹¬admitsAcc _ _ _ = false›, by simpa using h.symm⟩
        · cases h

theorem execColPush_of_admits {f : RawFrame} {s : State} (hd : s.colDone = false) (hf : f.sized = true)
    (hm : f.payload.length ≤ s.cfg.maxPayload) (ha : admitsAcc s.cfg s.acc f.payload.length = true) :
    execColPush f s = .next (collate f s) := by
  simp [execColPush, admitsPayload, hd, hf, hm, ha]

theorem execColEnd_next {s t : State} (h : execColEnd s = .next t) :
    s.colDone = false ∧
      t = { s with residualAtEnd := residualAfterEnd s.acc s.residualAtEnd, acc := [], colDone := true } := by
  unfold execColEnd at h
  split at h
  · cases h
  · exact ⟨by simpa using ‹¬s.colDone = true›, by simpa using h.symm⟩

/-! ### What exec can do -/

/-- A next state of `exec` comes from an operation of one unit, or from `RESET`. -/
theorem exec_next {i : Instr} {s t : State} (h : exec i s = .next t) :
    (∃ b, i = .syncPush b ∧ execSyncPush b s = .next t) ∨
    (i = .syncEnd ∧ execSyncEnd s = .next t) ∨
    (∃ f, i = .colPush f ∧ execColPush f s = .next t) ∨
    (i = .colEnd ∧ execColEnd s = .next t) ∨
    (unitOf i = some .codec ∧ ∃ r, t = deliver r s) ∨
    (i = .reset ∧ t = resetUnits s) := by
  have codec : ∀ r, (Host.Outcome.next (deliver r s) : Out) = .next t → ∃ r, t = deliver r s :=
    fun r h => ⟨r, by simpa using h.symm⟩
  have array : ∀ n r, arrayOp n r s = .next t → ∃ r, t = deliver r s :=
    fun n r h => ⟨r, ((arrayOp_next_iff n r s t).1 h).2⟩
  have group : ∀ (c : Prop) [Decidable c] n r, (if c then (.refused .countNotMultipleOf4 : Out) else arrayOp n r s) =
      .next t → ∃ r, t = deliver r s := by
    intro c _ n r h
    split at h
    · cases h
    · exact array n r h
  cases i with
  | syncPush b => exact .inl ⟨b, rfl, h⟩
  | syncEnd => exact .inr (.inl ⟨rfl, h⟩)
  | colPush f => exact .inr (.inr (.inl ⟨f, rfl, h⟩))
  | colEnd => exact .inr (.inr (.inr (.inl ⟨rfl, h⟩)))
  | enc10p6 | dec10p6 | enc4to5 | dec4to5 | crc16 | crc16Step =>
    exact .inr (.inr (.inr (.inr (.inl ⟨rfl, codec _ h⟩))))
  | encSlzU | encSlzS | decSlzU | decSlzS | enc10p6Buf | dec10p6Buf =>
    exact .inr (.inr (.inr (.inr (.inl ⟨rfl, array _ _ h⟩))))
  | enc4to5Buf | dec4to5Buf => exact .inr (.inr (.inr (.inr (.inl ⟨rfl, group _ _ _ h⟩))))
  | reset => exact .inr (.inr (.inr (.inr (.inr ⟨rfl, by simpa [exec, execReset] using h.symm⟩))))
  | frameMarker | frameW0 | frameW1 | frameW2 | code10p6 | code4to5W0 | code4to5Wi | slzHdrU | slzHdrS | slzWord =>
    cases h

/-! ### What a step can do -/

/-- An operand block is rejected as incomplete or for its `crc_valid` byte, never as no command. -/
theorem decodeOperands_ne_noCommand (op : Opcode) (bs : List Byte) : decodeOperands op bs ≠ .error .noCommand := by
  intro h
  unfold decodeOperands at h
  split at h <;> try cases h
  · unfold decodeColPush at h
    split at h
    · split at h
      · simp only at h
        split at h
        · cases h
        · split at h <;> cases h
      · cases h
    · cases h
  · split at h <;> cases h
  all_goals
    unfold decodeWith at h
    split at h <;> cases h

/-- A next state of `step` comes from an operation of the coupling, from a command of the environment, or from having
nothing to do. -/
theorem step_next {s t : State} (h : step s = .next t) :
    (∃ i, coupledOp s = some i ∧ exec i (noteDelivery i s) = .next t) ∨
    (coupledOp s = none ∧ ∃ i rest, decode s.cmdIn = .ok (i, rest) ∧ exec i { s with cmdIn := rest } = .next t) ∨
    (coupledOp s = none ∧ s.cmdIn = [] ∧ t = s) := by
  unfold step fetch at h
  cases hc : coupledOp s with
  | some i =>
    rw [hc] at h
    exact .inl ⟨i, rfl, h⟩
  | none =>
    rw [hc] at h
    simp only [fetchCommand] at h
    cases hd : decode s.cmdIn with
    | ok p =>
      rw [hd] at h
      exact .inr (.inl ⟨rfl, p.1, p.2, rfl, h⟩)
    | error e =>
      rw [hd] at h
      cases e with
      | noCommand =>
        refine .inr (.inr ⟨rfl, ?_, by simpa [refusalOf] using h.symm⟩)
        cases hs : s.cmdIn with
        | nil => rfl
        | cons b bs =>
          exfalso
          rw [hs] at hd
          simp only [decode] at hd
          cases ho : opcodeOf b with
          | none => simp [ho] at hd
          | some op =>
            rw [ho] at hd
            exact decodeOperands_ne_noCommand op bs hd
      | reserved c => simp [refusalOf] at h
      | incomplete op => simp [refusalOf] at h
      | badCrcValid b => simp [refusalOf] at h

/-- The operation the coupling issues (R75). -/
theorem coupledOp_some {s : State} {i : Instr} (h : coupledOp s = some i) :
    s.cfg.coupled = true ∧ s.colDone = false ∧
      ((∃ f, s.frameOut[s.delivered]? = some f ∧ i = .colPush f) ∨
       (s.frameOut[s.delivered]? = none ∧ s.syncState = .done ∧ i = .colEnd)) := by
  unfold coupledOp at h
  split at h
  · rename_i hc
    simp only [Bool.and_eq_true, Bool.not_eq_true'] at hc
    refine ⟨hc.1, hc.2, ?_⟩
    split at h
    · exact .inl ⟨_, ‹_›, by simpa using h.symm⟩
    · split at h
      · exact .inr ⟨‹_›, ‹_›, by simpa using h.symm⟩
      · cases h
  · cases h

end Sys2Proof.Machine
end

