-- ==== Sys2Proof/Laws/PerInstr.lean ====
section
/-! SUPPORT. Facts about every instruction as syntax, one lemma per constructor. Family `CommandOrFormat`: an instruction
is a command of spec/30_encoding.md R120, or a data format with a 16-bit word, and never both. -/

namespace Sys2Proof.Laws.CommandOrFormat

/-- An operation has command bytes that begin with the code of a row of R120; a data format has a word and none. -/
def Statement (i : Instr) : Prop :=
  (encodeFormat i = none ∧ ∃ op tail, encode i = Opcode.code op :: tail) ∨
  (encode i = [] ∧ i.wellFormed = false ∧ (encodeFormat i).isSome = true)

theorem syncPush (b : Byte) : Statement (.syncPush b) := .inl ⟨rfl, .syncPush, _, rfl⟩
theorem syncEnd : Statement .syncEnd := .inl ⟨rfl, .syncEnd, _, rfl⟩
theorem colPush (f : RawFrame) : Statement (.colPush f) := .inl ⟨rfl, .colPush, _, rfl⟩
theorem colEnd : Statement .colEnd := .inl ⟨rfl, .colEnd, _, rfl⟩
theorem enc10p6 (v : Word32) : Statement (.enc10p6 v) := .inl ⟨rfl, .enc10p6, _, rfl⟩
theorem dec10p6 (c : Word16) : Statement (.dec10p6 c) := .inl ⟨rfl, .dec10p6, _, rfl⟩
theorem enc4to5 (v0 v1 v2 v3 : Word32) : Statement (.enc4to5 v0 v1 v2 v3) := .inl ⟨rfl, .enc4to5, _, rfl⟩
theorem dec4to5 (w0 w1 w2 w3 w4 : Word16) : Statement (.dec4to5 w0 w1 w2 w3 w4) := .inl ⟨rfl, .dec4to5, _, rfl⟩
theorem encSlzU (a : List Word32) : Statement (.encSlzU a) := .inl ⟨rfl, .encSlzU, _, rfl⟩
theorem encSlzS (a : List Word32) : Statement (.encSlzS a) := .inl ⟨rfl, .encSlzS, _, rfl⟩
theorem decSlzU (buf : List Byte) (n : Nat) : Statement (.decSlzU buf n) := .inl ⟨rfl, .decSlzU, _, rfl⟩
theorem decSlzS (buf : List Byte) (n : Nat) : Statement (.decSlzS buf n) := .inl ⟨rfl, .decSlzS, _, rfl⟩
theorem enc10p6Buf (a : List Word32) : Statement (.enc10p6Buf a) := .inl ⟨rfl, .enc10p6Buf, _, rfl⟩
theorem dec10p6Buf (buf : List Byte) (n : Nat) : Statement (.dec10p6Buf buf n) := .inl ⟨rfl, .dec10p6Buf, _, rfl⟩
theorem enc4to5Buf (a : List Word32) : Statement (.enc4to5Buf a) := .inl ⟨rfl, .enc4to5Buf, _, rfl⟩
theorem dec4to5Buf (buf : List Byte) (n : Nat) : Statement (.dec4to5Buf buf n) := .inl ⟨rfl, .dec4to5Buf, _, rfl⟩
theorem crc16 (buf : List Byte) : Statement (.crc16 buf) := .inl ⟨rfl, .crc16, _, rfl⟩
theorem crc16Step (c : Word16) (b : Byte) : Statement (.crc16Step c b) := .inl ⟨rfl, .crc16Step, _, rfl⟩
theorem reset : Statement .reset := .inl ⟨rfl, .reset, _, rfl⟩
theorem frameMarker : Statement .frameMarker := .inr ⟨rfl, rfl, rfl⟩
theorem frameW0 (version : BitVec 3) (ptype secHdr : BitVec 1) (appid : BitVec 11) :
    Statement (.frameW0 version ptype secHdr appid) := .inr ⟨rfl, rfl, rfl⟩
theorem frameW1 (gflags : BitVec 2) (seq : BitVec 14) : Statement (.frameW1 gflags seq) := .inr ⟨rfl, rfl, rfl⟩
theorem frameW2 (dlen : BitVec 16) : Statement (.frameW2 dlen) := .inr ⟨rfl, rfl, rfl⟩
theorem code10p6 (mant : BitVec 10) (sign : BitVec 1) (lz : BitVec 5) : Statement (.code10p6 mant sign lz) :=
  .inr ⟨rfl, rfl, rfl⟩
theorem code4to5W0 (nib0 nib1 nib2 nib3 : BitVec 4) : Statement (.code4to5W0 nib0 nib1 nib2 nib3) :=
  .inr ⟨rfl, rfl, rfl⟩
theorem code4to5Wi (sign inplace : BitVec 1) (mant : BitVec 14) : Statement (.code4to5Wi sign inplace mant) :=
  .inr ⟨rfl, rfl, rfl⟩
theorem slzHdrU (shift len : BitVec 8) : Statement (.slzHdrU shift len) := .inr ⟨rfl, rfl, rfl⟩
theorem slzHdrS (sign : BitVec 1) (shift : BitVec 7) (len : BitVec 8) : Statement (.slzHdrS sign shift len) :=
  .inr ⟨rfl, rfl, rfl⟩
theorem slzWord (w : BitVec 16) : Statement (.slzWord w) := .inr ⟨rfl, rfl, rfl⟩

end Sys2Proof.Laws.CommandOrFormat
end

