-- ==== Sys2Proof/Tests/Slice0.lean ====
section
/-! SUPPORT. The model's own tests, each expected value from spec/95_test_vectors.md or an example of the rule named:
the smoke test of WellFormed, the decoding of a written-out word of every constructor, one small step per
instruction, and a witness for the hypotheses of every statement of Certificates/Slice0/Obligations.lean. -/

namespace Sys2Proof.Tests

open Sys2Proof Sys2Proof.Machine

/-! ### Helpers -/

def byteList (ns : List Nat) : List Byte := ns.map (BitVec.ofNat 8)

def wordList (ns : List Int) : List Word32 := ns.map (BitVec.ofInt 32)

/-- The next state, if there is one. -/
def after (o : Out) : Option State :=
  match o with
  | .next t => some t
  | _ => none

/-- The refusal, if it is one. -/
def refusal (o : Out) : Option Refusal :=
  match o with
  | .refused r => some r
  | _ => none

/-- What a CODEC operation delivers from the reset state. -/
def delivers (i : Instr) : Option Result := (after (exec i State.reset)).map (·.result)

/-- The instruction and the rest a byte sequence decodes to. -/
def decoded (ns : List Nat) : Option (Instr × List Byte) := (decode (byteList ns)).toOption

/-- A RawFrame with the fields the vectors of section 2.3 vary. -/
def frame (appid gflags seq : Nat) (payload : List Nat) : RawFrame where
  version := 0
  ptype := 0
  secHdr := 0
  appid := BitVec.ofNat 11 appid
  gflags := BitVec.ofNat 2 gflags
  seq := BitVec.ofNat 14 seq
  dlen := BitVec.ofNat 16 (payload.length - 1)
  payload := byteList payload
  crcRx := 0
  crcValid := true

/-- A configuration with finite limits, for the boundaries. -/
def tight (m : Nat) : State := { State.reset with cfg := { Config.default with nMax := some m, accMax := some m } }

/-- The same with a finite `MAX_PAYLOAD`. -/
def brief (m k : Nat) : State := { tight m with cfg := { (tight m).cfg with maxPayload := k } }

/-! ### WellFormed: one ill-formed term for each check -/

theorem test_wellFormed_payload_length : (Instr.colPush { frame 1 3 4 [1, 2] with dlen := 2 }).wellFormed = false := by
  decide
theorem test_wellFormed_element_count : (Instr.decSlzU [] (2 ^ 32)).wellFormed = false := by decide
theorem test_wellFormed_largest_count : (Instr.decSlzU [] (2 ^ 32 - 1)).wellFormed = true := by decide
theorem test_wellFormed_array_length (a : List Word32) (h : a.length = 2 ^ 32) :
    (Instr.encSlzU a).wellFormed = false := by simp [Instr.wellFormed, fitsCount, h]
theorem test_wellFormed_buffer_length (buf : List Byte) (h : buf.length = 2 ^ 32) :
    (Instr.crc16 buf).wellFormed = false := by simp [Instr.wellFormed, fitsCount, h]
theorem test_wellFormed_data_format :
    (Instr.frameW2 3).wellFormed = false ∧ (Instr.slzWord 7).wellFormed = false := by decide

/-! ### Decoding written-out words (R120 to R122; section 2 and 3 of the vectors) -/

theorem test_decode_syncPush : decoded [0x01, 0xA5] = some (.syncPush 0xA5#8, []) := by decide
theorem test_decode_syncEnd : decoded [0x02] = some (.syncEnd, []) := by decide
theorem test_decode_colPush :
    decoded [0x11, 0x00, 0x07, 0x80, 0x0B, 0x00, 0x00, 0xB1, 0x00, 0x00, 0x01] =
      some (.colPush (frame 7 2 11 [0xB1]), []) := by
  decide
theorem test_decode_colPush_fields :
    decoded [0x11, 0xFF, 0xFF, 0xC0, 0x01, 0x00, 0x00, 0x7F, 0x08, 0xAE, 0x00] =
      some (.colPush ⟨7, 1, 1, 0x7FF, 3, 1, 0, [0x7F#8], 0x08AE#16, false⟩, []) := by
  decide
theorem test_decode_colEnd : decoded [0x12] = some (.colEnd, []) := by decide
theorem test_decode_enc10p6 :
    decoded [0x20, 0xC0, 0x1D, 0xFE, 0xFF] = some (.enc10p6 (BitVec.ofInt 32 (-123456)), []) := by
  decide
theorem test_decode_dec10p6 : decoded [0x21, 0x2F, 0xF1] = some (.dec10p6 0xF12F#16, []) := by decide
theorem test_decode_enc4to5 :
    decoded [0x22, 0x01, 0x00, 0x00, 0x00, 0xFF, 0xFF, 0xFF, 0xFF, 0x02, 0x00, 0x00, 0x00, 0xFE, 0xFF, 0xFF, 0xFF] =
      some (.enc4to5 1 (-1) 2 (-2), []) := by
  decide
theorem test_decode_dec4to5 :
    decoded [0x23, 0x03, 0x54, 0x48, 0x3C, 0x07, 0x80, 0xFF, 0x3F, 0x00, 0x20] =
      some (.dec4to5 0x5403#16 0x3C48#16 0x8007#16 0x3FFF#16 0x2000#16, []) := by
  decide
theorem test_decode_encSlzU :
    decoded [0x24, 0x02, 0x00, 0x00, 0x00, 0x05, 0x00, 0x00, 0x00, 0x00, 0x00, 0x01, 0x00] =
      some (.encSlzU [5, 65536], []) := by
  decide
theorem test_decode_encSlzS :
    decoded [0x25, 0x01, 0x00, 0x00, 0x00, 0xFB, 0xFF, 0xFF, 0xFF] = some (.encSlzS [-5], []) := by
  decide
theorem test_decode_decSlzU :
    decoded [0x26, 0x01, 0x00, 0x00, 0x00, 0x04, 0x00, 0x00, 0x00, 0x00, 0x01, 0x05, 0x00] =
      some (.decSlzU [0, 1, 5, 0] 1, []) := by
  decide
theorem test_decode_decSlzS :
    decoded [0x27, 0x02, 0x00, 0x00, 0x00, 0x01, 0x00, 0x00, 0x00, 0x80] = some (.decSlzS [0x80#8] 2, []) := by
  decide
theorem test_decode_enc10p6Buf :
    decoded [0x28, 0x01, 0x00, 0x00, 0x00, 0xE8, 0x03, 0x00, 0x00] = some (.enc10p6Buf [1000], []) := by
  decide
theorem test_decode_dec10p6Buf :
    decoded [0x29, 0x01, 0x00, 0x00, 0x00, 0x02, 0x00, 0x00, 0x00, 0x16, 0xFA] =
      some (.dec10p6Buf [0x16#8, 0xFA#8] 1, []) := by
  decide
theorem test_decode_enc4to5Buf : decoded [0x2A, 0x00, 0x00, 0x00, 0x00] = some (.enc4to5Buf [], []) := by decide
theorem test_decode_dec4to5Buf :
    decoded [0x2B, 0x04, 0x00, 0x00, 0x00, 0x01, 0x00, 0x00, 0x00, 0x7F] = some (.dec4to5Buf [0x7F#8] 4, []) := by
  decide
theorem test_decode_crc16 :
    decoded [0x30, 0x02, 0x00, 0x00, 0x00, 0x41, 0x42] = some (.crc16 [0x41#8, 0x42#8], []) := by
  decide
theorem test_decode_crc16Step : decoded [0x31, 0xFF, 0xFF, 0x01] = some (.crc16Step 0xFFFF#16 0x01#8, []) := by decide
theorem test_decode_reset : decoded [0xFF] = some (.reset, []) := by decide

/-! The data-format words (R91 to R94, R100 to R105), from vectors V1, 2.4, 2.5 and 2.6. -/

theorem test_format_frameMarker : decodeFormat .frameMarker 0xECA0#16 = some .frameMarker := by decide
theorem test_format_frameMarker_other : decodeFormat .frameMarker 0xECA1#16 = none := by decide
theorem test_format_frameW0 : decodeFormat .frameW0 0xA90B#16 = some (.frameW0 5 0 1 0x10B) := by decide
theorem test_format_frameW1 : decodeFormat .frameW1 0xC001#16 = some (.frameW1 3 1) := by decide
theorem test_format_frameW2 : decodeFormat .frameW2 0x0003#16 = some (.frameW2 3) := by decide
theorem test_format_code10p6 : decodeFormat .code10p6 0xF12F#16 = some (.code10p6 0x3C4 1 15) := by decide
theorem test_format_code4to5W0 : decodeFormat .code4to5W0 0x5403#16 = some (.code4to5W0 3 0 4 5) := by decide
theorem test_format_code4to5Wi : decodeFormat .code4to5Wi 0xE000#16 = some (.code4to5Wi 1 1 0x2000) := by decide
theorem test_format_slzHdrU : decodeFormat .slzHdrU 0x0204#16 = some (.slzHdrU 2 4) := by decide
theorem test_format_slzHdrS : decodeFormat .slzHdrS 0x8202#16 = some (.slzHdrS 1 2 2) := by decide
theorem test_format_slzWord : decodeFormat .slzWord 0x61A8#16 = some (.slzWord 25000) := by decide

/-! Words of spec/opcode_table.json. -/

theorem test_table_command : decodeTableWord 8 0x20 = some (.enc10p6 0) := by decide
theorem test_table_marker : decodeTableWord 16 0xECA0 = some .frameMarker := by decide
theorem test_table_reserved : decodeTableWord 8 0x40 = none := by decide
theorem test_fetch_word_before_coupling :
    (after (step (State.withFetchWord { State.reset with frameOut := [frame 1 3 4 [1]] } 8 0x31))).map (·.result) =
      delivers (.crc16Step 0 0) := by
  decide
theorem test_fetch_word :
    after (step (State.reset.withFetchWord 8 0x31)) = after (exec (.crc16Step 0 0) State.reset) := by
  decide

/-! ### One step of each instruction -/

/-- After the bytes `ns` of the wire stream from reset. -/
def fed (ns : List Nat) : Option State := after (execAll (syncFeed (byteList ns)) State.reset)

theorem test_syncPush_marker_after_garbage :
    (fed [0xEC, 0xEC, 0xA0]).map (fun s => (s.syncState, s.syncDiag, s.garbageCount)) =
      some (.readingHeader, [.syncLoss 1], 1) := by
  decide
/-- `GARBAGE_WIDTH` = 3: both counters saturate at 7 (R24, R25, U10). -/
theorem test_garbage_width :
    (after (exec (.syncPush 0xA0#8) { State.reset with
      cfg := { Config.default with garbageWidth := 3 }, window := 0x12EC#16, seekCount := 7, garbageCount := 4 })).map
        (fun s => (s.garbageCount, s.syncDiag)) = some (7, [.syncLoss 5]) := by
  decide
theorem test_syncPush_filler_inside_marker :
    (fed [0xEC, 0xA5, 0xA0]).map (·.syncState) = some .readingHeader := by
  decide
theorem test_syncEnd_lone_marker_byte :
    ((fed [0x12, 0xEC]).bind fun s => after (exec .syncEnd s)).map (·.syncDiag) = some [.syncLoss 2] := by
  decide
theorem test_syncEnd_inside_header :
    ((fed [0xEC, 0xA0, 0x00]).bind fun s => after (exec .syncEnd s)).map (·.partialAtEnd) = some true := by
  decide
theorem test_colPush_terminal :
    (after (exec (.colPush (frame 0x100 3 1 [0x11, 0x22, 0x33, 0x44])) State.reset)).map (·.packetOut) =
      some [⟨1, 1, 0x100, byteList [0x22, 0x11, 0x44, 0x33], true⟩] := by
  decide
theorem test_colPush_drift :
    ((after (exec (.colPush (frame 1 0 0 [1, 2])) State.reset)).bind fun s =>
      after (exec (.colPush (frame 2 0 1 [3, 4])) s)).map (·.colDiag) =
      some [.applicationIdDrift 1 2 1] := by
  decide
theorem test_colEnd_residual :
    ((after (exec (.colPush (frame 1 0 7 [1])) State.reset)).bind fun s => after (exec .colEnd s)).map
      (fun s => (s.residualAtEnd, s.colDone, s.packetOut)) =
      some (true, true, []) := by
  decide
theorem test_enc10p6_truncates : delivers (.enc10p6 (BitVec.ofInt 32 (-8191))) = some (.code 0xFFF3#16) := by decide
theorem test_enc10p6_most_negative : delivers (.enc10p6 0x80000000#32) = some (.code 0x8020#16) := by decide
theorem test_dec10p6_truncated : delivers (.dec10p6 0xFFF3#16) = some (.value (-8184)) := by decide
theorem test_dec10p6_non_canonical : delivers (.dec10p6 0x0040#16) = some (.value 0x400000#32) := by decide
theorem test_enc4to5_shifts :
    delivers (.enc4to5 123456 (-7) 262143 262144) =
      some (.words 0x5403#16 0x3C48#16 0x8007#16 0x3FFF#16 0x2000#16) := by
  decide
theorem test_enc4to5_in_place_flag :
    delivers (.enc4to5 0x7FFFFFFF 0x80000000 0x10000 (-0x12345678)) =
      some (.words 0xF321#16 0x7FFF#16 0xE000#16 0x2000#16 0xA468#16) := by
  decide
theorem test_dec4to5_shifts :
    delivers (.dec4to5 0x5403 0x3C48 0x8007 0x3FFF 0x2000) = some (.values 123456 (-7) 262128 262144) := by
  decide
theorem test_dec4to5_non_canonical :
    delivers (.dec4to5 0xFFFF 0x7FFF 0xFFFF 0x8000 0x4001) = some (.values 0x80000000 0x80000000 0 0x80000000) := by
  decide
theorem test_encSlzU_runs :
    delivers (.encSlzU (wordList [100000, 150000, 70000, 40000, 20000, 3])) =
      some (.bytes (byteList [0x02, 0x04, 0xA8, 0x61, 0x7C, 0x92, 0x5C, 0x44, 0x10, 0x27, 0x00, 0x02,
        0x20, 0x4E, 0x03, 0x00])) := by
  decide
theorem test_encSlzU_loses_bit_31 :
    delivers (.encSlzU (wordList [0x20000000, 0x80000000, 0xFFFFFFFF])) =
      some (.bytes (byteList [0x0F, 0x03, 0x00, 0x40, 0x00, 0x00, 0xFF, 0xFF])) := by
  decide
theorem test_encSlzS_sign_cuts :
    delivers (.encSlzS (wordList [5, -5, -6, 0, 7])) =
      some (.bytes (byteList [0x00, 0x01, 0x05, 0x00, 0x80, 0x02, 0x05, 0x00, 0x06, 0x00, 0x00, 0x02,
        0x00, 0x00, 0x07, 0x00])) := by
  decide
theorem test_decSlzU_zero_length_run :
    delivers (.decSlzU (byteList [0x00, 0x00, 0x01, 0x05, 0x07, 0x00, 0x09, 0x00]) 1) =
      some (.slzArray [14] 6) := by
  decide
theorem test_decSlzU_truncated :
    delivers (.decSlzU (byteList [0x02, 0x02, 0xA8, 0x61, 0x7C, 0x92, 0x00, 0x01, 0x03]) 3) =
      some (.truncation ⟨10, 9⟩) := by
  decide
theorem test_decSlzS_signs :
    delivers (.decSlzS (byteList [0x82, 0x02, 0xA8, 0x61, 0x7C, 0x92, 0x02, 0x01, 0xA8, 0x61]) 3) =
      some (.slzArray (wordList [-100000, -150000, 100000]) 10) := by
  decide
theorem test_enc10p6Buf :
    delivers (.enc10p6Buf (wordList [1000, -1, 8191, 0])) =
      some (.bytes (byteList [0x16, 0xFA, 0x3F, 0x80, 0xD3, 0xFF, 0x00, 0x00])) := by
  decide
theorem test_dec10p6Buf :
    delivers (.dec10p6Buf (byteList [0x16, 0xFA, 0x3F, 0x80, 0xD3, 0xFF, 0x00]) 3) =
      some (.array (wordList [1000, -1, 8184])) := by
  decide
theorem test_dec10p6Buf_truncated :
    delivers (.dec10p6Buf (byteList [0x16, 0xFA, 0x3F, 0x80, 0xD3, 0xFF, 0x00]) 4) = some (.truncation ⟨8, 7⟩) := by
  decide
theorem test_enc4to5Buf :
    delivers (.enc4to5Buf (wordList [1, -1, 2, -2])) =
      some (.bytes (byteList [0x00, 0x00, 0x01, 0x00, 0x01, 0x80, 0x02, 0x00, 0x02, 0x80])) := by
  decide
theorem test_enc4to5Buf_odd_count :
    refusal (exec (.enc4to5Buf [1, 2, 3]) State.reset) = some .countNotMultipleOf4 := by
  decide
theorem test_dec4to5Buf :
    delivers (.dec4to5Buf (byteList [0x00, 0x00, 0x01, 0x00, 0x01, 0x80, 0x02, 0x00, 0x02, 0x80]) 4) =
      some (.array (wordList [1, -1, 2, -2])) := by
  decide
theorem test_dec4to5Buf_truncated :
    delivers (.dec4to5Buf (byteList [0x00, 0x00, 0x01, 0x00, 0x01, 0x80, 0x02, 0x00, 0x02]) 4) =
      some (.truncation ⟨10, 9⟩) := by
  decide
theorem test_crc16_check_value :
    delivers (.crc16 (byteList [0x31, 0x32, 0x33, 0x34, 0x35, 0x36, 0x37, 0x38, 0x39])) =
      some (.code 0x29B1#16) := by
  decide +kernel
theorem test_crc16_empty : delivers (.crc16 []) = some (.code 0xFFFF#16) := by decide
theorem test_crc16Step : delivers (.crc16Step 0xFFFF#16 0x31#8) = some (.code 0xC782#16) := by decide
theorem test_crc16Step_polynomial : delivers (.crc16Step 0x0000#16 0x01#8) = some (.code 0x1021#16) := by decide
theorem test_reset : ((fed [0xEC, 0xA0, 0x01]).bind fun s => after (exec .reset s)) = some State.reset := by decide
theorem test_data_format_refused : refusal (exec (.frameW2 3) State.reset) = some (.dataFormat .frameW2) := by decide
theorem test_reserved_refused :
    refusal (step { State.reset with cmdIn := [0x40] }) = some (.reservedCommand 0x40) := by
  decide

/-! ### Witnesses: for each statement with hypotheses, a state and operands that meet them, each clause at a boundary -/

/-- The header is complete but for one byte, or the body but for one byte, of a frame of one payload byte. -/
def midFrame (st : SyncState) (hdr body : List Nat) : State :=
  { State.reset with syncState := st, hdrBuf := byteList hdr, bodyBuf := byteList body }

/-- `SYNC` right after the first marker byte. -/
def halfMarker : State := { State.reset with window := 0x00EC#16, seekCount := 1 }

/-- `COL` has ended. -/
def colEnded : State := { State.reset with colDone := true }

/-- `SYNC` has ended. -/
def syncEnded : State := { State.reset with syncState := .done }

theorem witness_DecodeOfEncodeIsTheInstruction :
    (Instr.decSlzS [] (2 ^ 32 - 1)).wellFormed = true ∧ (Instr.colPush (frame 0x7FF 3 0x3FFF [1])).wellFormed = true := by
  decide

theorem witness_DecodedBytesAreTheEncoding :
    decode (byteList [0x31, 0xFF, 0xFF, 0x01, 0xFF]) = .ok (.crc16Step 0xFFFF#16 0x01#8, [0xFF#8]) := rfl

theorem witness_DataFormatWordsRoundTrip :
    encodeFormat (.slzHdrS 1 127 255) = some (.slzHdrS, 0xFFFF#16) ∧
    decodeFormat .frameMarker 0xECA0#16 = some .frameMarker := by decide

/-- The reserved bytes next to the codes of R120. -/
theorem witness_ReservedCommandByteRefused :
    ∀ b ∈ byteList [0x00, 0x03, 0x10, 0x13, 0x1F, 0x2C, 0x2F, 0x32, 0xFE],
      coupledOp { State.reset with cmdIn := [b] } = none ∧
      b.toNat ∉ [0x01, 0x02, 0x11, 0x12, 0x20, 0x21, 0x22, 0x23, 0x24, 0x25, 0x26, 0x27, 0x28, 0x29, 0x2A, 0x2B,
        0x30, 0x31, 0xFF] := by decide

theorem witness_CommandCutShortIsRefused :
    (Instr.dec10p6 0xFA16#16).wellFormed = true ∧ 2 < (encode (.dec10p6 0xFA16#16)).length ∧
    coupledOp { State.reset with cmdIn := (encode (.dec10p6 0xFA16#16)).take 2 } = none := by decide

theorem witness_StepRunsTheDecodedCommand :
    (let s : State := { State.reset with cmdIn := byteList [0x02, 0xFF] }
     coupledOp s = none ∧ decode s.cmdIn = .ok (.syncEnd, [0xFF#8])) ∧
    (coupledOp State.reset = none ∧ State.reset.cmdIn = []) := by
  refine ⟨⟨?_, rfl⟩, ?_⟩ <;> decide

theorem witness_CouplingDeliversFramesInOrder :
    (let s : State := { State.reset with frameOut := [frame 1 3 4 [1]] }
     s.cfg.coupled = true ∧ s.colDone = false ∧ s.delivered < s.frameOut.length) ∧
    (let s : State := { State.reset with frameOut := [frame 1 3 4 [1]], delivered := 1, syncState := .done }
     s.cfg.coupled = true ∧ s.colDone = false ∧ s.frameOut.length ≤ s.delivered ∧ s.syncState = .done) := by decide

theorem witness_FillerIsSilentlySkipped :
    halfMarker.syncState = .seekingSync ∧ halfMarker.cfg.fillerEntersWindow = false := by decide

theorem witness_FillerMayEnterTheWindow :
    let s : State := { halfMarker with cfg := { Config.default with fillerEntersWindow := true } }
    s.syncState = .seekingSync ∧ s.cfg.fillerEntersWindow = true := by decide

/-- At the saturated counter. -/
theorem witness_SeekByteIsShiftedAndCounted :
    let s : State := { halfMarker with seekCount := 2 ^ 32 - 1 }
    s.syncState = .seekingSync ∧ 0xA1#8 ≠ 0xA5#8 ∧
      BitVec.ofNat 16 (s.window.toNat * 256 + (0xA1#8).toNat) ≠ 0xECA0#16 := by decide

/-- The invariant in a state other than reset, whatever is presented. -/
theorem halfMarker_inv (cmd : List Byte) : Inv { halfMarker with cmdIn := cmd } := by
  constructor <;> constructor <;> simp [halfMarker, State.reset, Config.default]

/-- With no garbage before the marker: `n = 2`. -/
theorem witness_MarkerEndsTheSeek :
    Inv halfMarker ∧ halfMarker.syncState = .seekingSync ∧ 0xA0#8 ≠ 0xA5#8 ∧
      BitVec.ofNat 16 (halfMarker.window.toNat * 256 + (0xA0#8).toNat) = 0xECA0#16 :=
  ⟨halfMarker_inv [], by decide⟩

theorem witness_HeaderBytesAreStoredAndParsed :
    (let s := midFrame .readingHeader [0, 1, 0xC0, 0] []
     s.syncState = .readingHeader ∧ s.hdrBuf.length + 1 ≠ 6) ∧
    (let s := midFrame .readingHeader [0, 1, 0xC0, 0, 0] []
     s.syncState = .readingHeader ∧ s.hdrBuf = [0#8, 1#8, 0xC0#8, 0#8, 0#8]) := by decide

/-- `h_dlen` is 0: three body bytes. -/
theorem witness_BodyBytesCompleteTheFrame :
    (let s := midFrame .readingBody [0, 1, 0xC0, 0, 0, 0] [0x7F]
     s.syncState = .readingBody ∧ s.bodyBuf.length + 1 ≠ s.hDlen.toNat + 3) ∧
    (let s := midFrame .readingBody [0, 1, 0xC0, 0, 0, 0] [0x7F, 0x08]
     s.syncState = .readingBody ∧ [0x7F#8].length = s.hDlen.toNat + 1 ∧ s.bodyBuf = [0x7F#8] ++ [0x08#8]) := by
  decide

theorem witness_SyncEndFinishesTheStream :
    State.reset.syncState = .seekingSync ∧ (midFrame .readingHeader [] []).syncState = .readingHeader ∧
    (midFrame .readingBody [] []).syncState = .readingBody ∧ syncEnded.syncState = .done := by decide

theorem witness_SyncPushRefusedExactlyInDone :
    syncEnded.syncState = .done ∧ (midFrame .readingBody [] []).syncState ≠ .done := by decide

/-- `SYNC.END` from reset changes `sync_state` and enters `DONE`; `RESET` leaves it; a byte leaves it alone. -/
theorem witness_SyncStateIsWrittenAsTheRuleSays :
    (exec .syncEnd State.reset = .next syncEnded ∧ syncEnded.syncState ≠ State.reset.syncState ∧
      State.reset.syncState ≠ .done ∧ syncEnded.syncState = .done) ∧
    (exec .reset syncEnded = .next State.reset ∧ State.reset.syncState ≠ .done) ∧
    exec (.syncPush 0xA5#8) State.reset = .next State.reset := by
  refine ⟨⟨rfl, ?_⟩, ⟨rfl, ?_⟩, rfl⟩ <;> decide

/-- A gap that ends in the first marker byte, and a frame of one payload byte. -/
theorem witness_CleanStreamIsRecovered :
    let segs : List (List Byte × RawFrame) := [(byteList [0xA5, 0x12, 0xEC], frame 1 3 0 [0x7F])]
    Config.default.fillerEntersWindow = false ∧
    (∀ p ∈ segs, cleanGap p.1 ∧ 1 ≤ p.2.payload.length ∧ p.2.payload.length ≤ 65536) ∧ cleanGap [0xEC#8] ∧
    (segs.flatMap (fun p => p.1 ++ wireFrame Config.default.crcXorout p.2) ++ [0xEC#8]).length < 2 ^ 32 := by
  refine ⟨rfl, ?_, ?_, ?_⟩
  · intro p hp
    obtain rfl := List.mem_singleton.1 hp
    refine ⟨?_, ?_, ?_⟩
    · unfold cleanGap; decide
    · decide
    · simp [frame, byteList]
  · unfold cleanGap; decide
  · decide

/-- With `ACC_MAX` reached exactly, `MAX_PAYLOAD` too, a run in progress or not, a frame terminal or not. -/
theorem witness_CollatorTakesAFrame :
    (∀ g ∈ [2, 3], ∀ s ∈ [brief 3 2, { brief 3 2 with acc := [9#8], singleFragment := false }],
      (frame 1 g 4 [1, 2]).payload.length ≤ s.cfg.maxPayload ∧ s.cfg.accMax = some 3 ∧
      (frame 1 g 4 [1, 2]).payload.length = (frame 1 g 4 [1, 2]).dlen.toNat + 1 ∧
      s.acc.length + (frame 1 g 4 [1, 2]).payload.length ≤ 3 ∧ s.colDone = false) ∧
    (frame 1 2 4 [1, 2]).gflags ≠ 3 ∧ (frame 1 3 4 [1, 2]).gflags = 3 ∧
    colEnded.colDone = true := by decide

theorem witness_SwapExchangesPairs : 2 * 0 + 1 < (byteList [1, 2, 3]).length ∧ (byteList [1, 2, 3]).length % 2 = 1 := by
  decide

theorem witness_PushBeyondAccMaxRefused :
    (tight 1).colDone = false ∧ (frame 1 3 4 [1, 2]).payload.length = (frame 1 3 4 [1, 2]).dlen.toNat + 1 ∧
    (tight 1).cfg.accMax = some 1 ∧ 1 < (tight 1).acc.length + (frame 1 3 4 [1, 2]).payload.length := by decide

theorem witness_PushOfTheWrongLengthRefused :
    (brief 2 1).colDone = false ∧
    { frame 1 3 4 [1] with dlen := 1 }.payload.length ≠ { frame 1 3 4 [1] with dlen := 1 }.dlen.toNat + 1 ∧
    (frame 1 3 4 [1, 2]).payload.length = (frame 1 3 4 [1, 2]).dlen.toNat + 1 ∧ (brief 2 1).cfg.accMax = some 2 ∧
    (brief 2 1).acc.length + (frame 1 3 4 [1, 2]).payload.length ≤ 2 ∧
    (brief 2 1).cfg.maxPayload < (frame 1 3 4 [1, 2]).payload.length := by decide

theorem witness_ColEndFinishesTheCollator : State.reset.colDone = false ∧ colEnded.colDone = true := by decide

theorem witness_RunIsReassembled :
    let s := brief 4 2
    let fs := [frame 7 1 10 [0xA1, 0xA2]]
    let f := frame 7 3 11 [0xC1, 0xC2]
    s.colDone = false ∧ s.acc = [] ∧ s.singleFragment = true ∧ s.cfg.accMax = some 4 ∧
    ((fs ++ [f]).flatMap RawFrame.payload).length ≤ 4 ∧ (∀ g ∈ fs ++ [f], g.payload.length = g.dlen.toNat + 1 ∧ g.payload.length ≤ s.cfg.maxPayload) ∧
    (∀ g ∈ fs, g.gflags ≠ 3) ∧ f.gflags = 3 ∧ (∀ g ∈ fs, g.payload.length % 2 = 0) := by decide

theorem witness_OnePacketPerTerminalFrame :
    ∃ t, execAll ([frame 1 0 0 [1, 2], frame 2 3 1 [3]].map .colPush) State.reset = .next t := ⟨_, rfl⟩

/-- The frame of vector S4, and the last bit of each part. -/
theorem witness_SingleBitErrorIsDetected :
    crcValidFlag Config.default (byteList [0x00, 0x01, 0xC0, 0x00, 0x00, 0x00]) (byteList [0x7F]) 0x08AE#16 = true ∧
    5 < (byteList [0x00, 0x01, 0xC0, 0x00, 0x00, 0x00]).length ∧ 0 < (byteList [0x7F]).length := by
  decide +kernel

theorem witness_Enc10p6BufWritesEachCode :
    (tight 2).cfg.nMax = some 2 ∧ (wordList [1, -1]).length ≤ 2 := by decide

theorem witness_Dec10p6BufReadsEachCode :
    (tight 2).cfg.nMax = some 2 ∧ (byteList [1, 2, 3]).length < 2 * 2 ∧ 2 * 2 ≤ (byteList [1, 2, 3, 4]).length := by
  decide

theorem witness_Codec4to5RoundTrips :
    exec (.dec4to5 0 0 0 0 0) State.reset = .next { State.reset with result := .values 0 0 0 0 } := rfl

theorem witness_Enc4to5BufWritesEachGroup :
    (wordList [1, 2, 3]).length % 4 ≠ 0 ∧ (tight 4).cfg.nMax = some 4 ∧ (wordList [1, -1, 2, -2]).length ≤ 4 := by
  decide

theorem witness_Dec4to5BufReadsEachGroup :
    6 % 4 ≠ 0 ∧ (tight 4).cfg.nMax = some 4 ∧ 4 % 4 = 0 ∧ (List.replicate 9 0#8).length < 10 * (4 / 4) ∧
    10 * (4 / 4) ≤ (List.replicate 10 0#8).length := by decide

/-- The run of R246, in which the third element has raw class 17. -/
theorem witness_SlzRunsAreCutGreedily :
    let es := (wordList [0x20000000, 0x80000000, 0xFFFFFFFF]).map unsignedElem
    let rs : List SlzRun := [{ shift := 15, neg := false, mags := wordList [0x20000000, 0x80000000, 0xFFFFFFFF] }]
    rs.flatMap runElems = es ∧ (∀ r ∈ rs, wellCut true r) ∧ cutGreedily true rs := by
  refine ⟨rfl, ?_, trivial⟩
  intro r hr
  obtain rfl := List.mem_singleton.1 hr
  refine ⟨_, _, rfl, rfl, ?_⟩
  intro k hk
  have : k = 0 ∨ k = 1 := by simp at hk; omega
  rcases this with rfl | rfl <;> · unfold mayJoin; decide +revert

theorem witness_SlzEncodersWriteTheRuns : (tight 2).cfg.nMax = some 2 ∧ (wordList [5, -5]).length ≤ 2 := by decide

theorem witness_SlzDecodersFollowTheIndexLoop : (tight 3).cfg.nMax = some 3 ∧ 3 ≤ 3 := by decide

theorem witness_SlzRoundTrip : (tight 2).cfg.nMax = some 2 ∧ (wordList [-5, 0]).length ≤ 2 := by decide

/-- The longest proper prefix and the empty one. -/
theorem witness_SlzPrefixIsTruncated :
    let u := (encSlz true ((wordList [100000, 3]).map unsignedElem)).length
    let v := (encSlz true ((wordList [100000, -3]).map signedElem)).length
    (tight 2).cfg.nMax = some 2 ∧ (wordList [100000, 3]).length ≤ 2 ∧ u - 1 < u ∧ 0 < u ∧ v - 1 < v ∧ 0 < v := by
  decide

theorem witness_SlzDecoderStaysInTheBuffer :
    decSlz false (byteList [0, 1, 5, 0, 9]) 1 = .ok ([5], 4) ∧
    (byteList [0, 1, 5, 0]).take 4 = (byteList [0, 1, 5, 0, 9]).take 4 ∧
    decSlz false (byteList [0, 1, 5]) 1 = .error ⟨4, 3⟩ := ⟨rfl, rfl, rfl⟩

theorem witness_CodecOperationsAreStateless :
    unitOf (.crc16Step 0#16 1#8) = some .codec ∧
    exec (.crc16Step 0#16 1#8) syncEnded = .next { syncEnded with result := .code 0x1021#16 } ∧
    State.reset.cfg = syncEnded.cfg := ⟨rfl, rfl, rfl⟩

theorem witness_CountBeyondNMaxRefused :
    (tight 3).cfg.nMax = some 3 ∧ 3 < (wordList [1, 2, 3, 4]).length ∧ (wordList [1, 2, 3, 4]).length % 4 = 0 ∧
    3 < 4 ∧ 4 % 4 = 0 := by decide

theorem witness_OperationsTouchTheirOwnUnit :
    (unitOf .syncEnd = some .sync ∧ exec .syncEnd State.reset = .next syncEnded) ∧
    (unitOf .colEnd = some .col ∧ exec .colEnd State.reset = .next colEnded) := ⟨⟨rfl, rfl⟩, ⟨rfl, rfl⟩⟩

theorem witness_OperationsOfDifferentUnitsCommute :
    unitOf .syncEnd = some .sync ∧ unitOf .colEnd = some .col ∧ HwUnit.sync ≠ HwUnit.col ∧
    exec .syncEnd State.reset = .next syncEnded ∧
    exec .colEnd syncEnded = .next { syncEnded with colDone := true } := ⟨rfl, rfl, by decide, rfl, rfl⟩

/-- At the saturated counter. -/
theorem witness_OutputsOnlyGrow :
    let s : State := { State.reset with garbageCount := 2 ^ 32 - 1 }
    s.garbageCount < 2 ^ s.cfg.garbageWidth ∧ (∃ t, exec .syncEnd s = .next t) ∧ Instr.syncEnd ≠ .reset :=
  ⟨by decide, ⟨_, rfl⟩, by decide⟩

/-- An operation that raises an event. -/
theorem witness_AtMostOneEventPerOperation :
    ∃ t, exec .syncEnd halfMarker = .next t ∧ t.syncDiag = [.syncLoss 1] := ⟨_, rfl, rfl⟩

/-- A step of the environment from a state of the invariant. -/
theorem witness_StepKeepsTheInvariant :
    Inv { halfMarker with cmdIn := byteList [0x01, 0xA0] } ∧
    ∃ t, step { halfMarker with cmdIn := byteList [0x01, 0xA0] } = .next t ∧ t.syncState = .readingHeader :=
  ⟨halfMarker_inv _, _, rfl, rfl⟩

end Sys2Proof.Tests
end

section
/-! PROOFS of family 00_scope: the parameter `FILLER_ENTERS_WINDOW` of R10. -/

namespace Sys2Proof.Proofs.Scope

open Sys2Proof Sys2Proof.Machine

/-- The shift of R23 as arithmetic: the window is moved up by one byte modulo `2 ^ 16`, and the new byte is added. -/
theorem shiftWindow_eq_ofNat (w : Word16) (b : Byte) :
    shiftWindow w b = BitVec.ofNat 16 (w.toNat * 256 + b.toNat) := by
  apply BitVec.eq_of_getLsbD_eq
  intro i hi
  have hsum : (w.toNat * 256 + b.toNat).testBit i =
      if i < 8 then b.getLsbD i else w.getLsbD (i - 8) := by
    rw [Nat.mul_comm]
    exact Nat.testBit_two_pow_mul_add w.toNat b.isLt i
  rw [BitVec.getLsbD_ofNat, hsum]
  by_cases low : i < 8
  · simp [shiftWindow, low, hi]
  · have hb : b.getLsbD i = false := BitVec.getLsbD_of_ge b i (by omega)
    simp [shiftWindow, low, hi, hb, BitVec.getLsbD_eq_getElem (show i - 8 < 16 by omega)]

/-- In `SEEKING_SYNC` a filler byte is left to `skipFiller` (R151). -/
theorem exec_syncPush_filler {s : State} (hseek : s.syncState = .seekingSync) :
    exec (.syncPush Config.filler) s = .next (skipFiller Config.filler s) := by
  simp [exec, execSyncPush, hseek]

theorem skipFiller_of_entersWindow {s : State} (b : Byte) (henters : s.cfg.fillerEntersWindow = true) :
    skipFiller b s = { s with window := shiftWindow s.window b } :=
  if_pos henters

/-- Settles O10: the filler branch of `SYNC.PUSH` (R151) under the parameter of R10 is the shift of R23 alone. -/
theorem fillerMayEnterTheWindow : Obligations.FillerMayEnterTheWindow := by
  intro s hseek henters
  have hshift : shiftWindow s.window Config.filler = BitVec.ofNat 16 (s.window.toNat * 256 + 0xA5) :=
    shiftWindow_eq_ofNat s.window Config.filler
  calc exec (.syncPush Config.filler) s
      = .next (skipFiller Config.filler s) := exec_syncPush_filler hseek
    _ = .next { s with window := shiftWindow s.window Config.filler } := by
        rw [skipFiller_of_entersWindow _ henters]
    _ = .next { s with window := BitVec.ofNat 16 (s.window.toNat * 256 + 0xA5) } := by rw [hshift]

end Sys2Proof.Proofs.Scope
end

section
/-! PROOFS of family 10_state: what the operations of each unit can do to the state, the status registers, and the
invariant. -/

namespace Sys2Proof.Proofs.UnitState

open Sys2Proof Sys2Proof.Machine

/-! ### The header words, packed again after parsing (R92, R93, R95) -/

theorem packW0_fields (w : Word16) : packW0 (w0Version w) (w0Ptype w) (w0SecHdr w) (w0Appid w) = w := by
  apply BitVec.eq_of_getLsbD_eq
  intro i hi
  rcases (by omega : i < 11 ∨ i = 11 ∨ i = 12 ∨ 13 ≤ i) with low | rfl | rfl | high
  · have h12 : i < 12 := by omega
    have h13 : i < 13 := by omega
    simp [packW0, w0Appid, hi, low, h12, h13]
  · simp [packW0, w0SecHdr, w0Appid]
  · simp [packW0, w0Ptype, w0SecHdr, w0Appid]
  · have h11 : ¬ i < 11 := by omega
    have h12 : ¬ i - 12 < 1 := by omega
    have h11' : ¬ i - 11 < 1 := by omega
    have h3 : i - 13 < 3 := by omega
    have hi' : 13 + (i - 13) = i := by omega
    simp [packW0, w0Version, w0Ptype, w0SecHdr, w0Appid, *]

theorem packW1_fields (w : Word16) : packW1 (w1Gflags w) (w1Seq w) = w := by
  apply BitVec.eq_of_getLsbD_eq
  intro i hi
  rcases (by omega : i < 14 ∨ 14 ≤ i) with low | high
  · simp [packW1, w1Seq, hi, low]
  · have h14 : ¬ i < 14 := by omega
    have h2 : i - 14 < 2 := by omega
    have hi' : 14 + (i - 14) = i := by omega
    simp [packW1, w1Gflags, w1Seq, *]

theorem headerBytes_headerFields (b0 b1 b2 b3 b4 b5 : Byte) :
    headerBytes (headerFields b0 b1 b2 b3 b4 b5) = [b0, b1, b2, b3, b4, b5] := by
  simp [headerBytes, headerFields, packW0_fields, packW1_fields]

/-! ### The header latches (R27) -/

/-- The seven latches as one record, with no payload and no CRC. -/
def latches (s : State) : RawFrame where
  version := s.hVersion
  ptype := s.hType
  secHdr := s.hSec
  appid := s.hAppid
  gflags := s.hGflags
  seq := s.hSeq
  dlen := s.hDlen
  payload := []
  crcRx := 0
  crcValid := false

/-- The fields `parseHeader` reads off `hdr_buf` (R95). -/
def bufferedFields (s : State) : RawFrame :=
  headerFields (s.hdrBuf.getD 0 0) (s.hdrBuf.getD 1 0) (s.hdrBuf.getD 2 0) (s.hdrBuf.getD 3 0) (s.hdrBuf.getD 4 0)
    (s.hdrBuf.getD 5 0)

theorem latches_parseHeader (s : State) : latches (parseHeader s) = bufferedFields s := rfl

/-- The latches hold the parsed header exactly when parsing it again changes nothing. -/
theorem parseHeader_eq_self_iff (s : State) : parseHeader s = s ↔ latches s = bufferedFields s := by
  constructor
  · intro h
    rw [← latches_parseHeader, h]
  · intro h
    calc parseHeader s
        = { s with hVersion := (bufferedFields s).version, hType := (bufferedFields s).ptype
                   hSec := (bufferedFields s).secHdr, hAppid := (bufferedFields s).appid
                   hGflags := (bufferedFields s).gflags, hSeq := (bufferedFields s).seq
                   hDlen := (bufferedFields s).dlen } := rfl
      _ = s := by rw [← h]; rfl

theorem headerBytes_bufferedFields {s : State} (hlen : s.hdrBuf.length = Config.headerLen) :
    headerBytes (bufferedFields s) = s.hdrBuf := by
  obtain ⟨b0, b1, b2, b3, b4, b5, hbuf⟩ : ∃ b0 b1 b2 b3 b4 b5, s.hdrBuf = [b0, b1, b2, b3, b4, b5] := by
    simpa [Config.headerLen, List.length_eq_succ_iff, @eq_comm _ s.hdrBuf] using hlen
  rw [bufferedFields, hbuf]
  exact headerBytes_headerFields b0 b1 b2 b3 b4 b5

/-! ### The frame of a complete body (R30, R145, R156) -/

theorem receivedFrame_sized {s : State} (hlen : s.bodyBuf.length = bodyNeed s) : (receivedFrame s).sized = true := by
  have hpayload : (s.bodyBuf.take (bodyNeed s - 2)).length = s.hDlen.toNat + 1 := by
    rw [List.length_take, hlen]
    simp [bodyNeed, Config.crcLen]
  simpa [RawFrame.sized, receivedFrame] using hpayload

/-- The header of an emitted frame is the one received. -/
theorem headerBytes_receivedFrame {s : State} (hlen : s.hdrBuf.length = Config.headerLen)
    (hparsed : parseHeader s = s) : headerBytes (receivedFrame s) = s.hdrBuf :=
  calc headerBytes (receivedFrame s)
      = headerBytes (latches s) := rfl
    _ = headerBytes (bufferedFields s) := by rw [(parseHeader_eq_self_iff s).1 hparsed]
    _ = s.hdrBuf := headerBytes_bufferedFields hlen

theorem receivedFrame_crcValid {s : State} (hlen : s.hdrBuf.length = Config.headerLen) (hparsed : parseHeader s = s) :
    (receivedFrame s).crcValid =
      crcValidFlag s.cfg (headerBytes (receivedFrame s)) (receivedFrame s).payload (receivedFrame s).crcRx := by
  rw [headerBytes_receivedFrame hlen hparsed]
  rfl

/-! ### The payload swap (R66, R67) -/

theorem swap16_length (bs : List Byte) : (swap16 bs).length = bs.length := by
  induction bs using swap16.induct with
  | case1 b0 b1 rest ih => simp [swap16, ih]
  | case2 rest hshort => rw [swap16]; exact hshort

theorem swap16_ne_nil {f : RawFrame} (hsized : f.sized = true) : swap16 f.payload ≠ [] := by
  have hlen : f.payload.length = f.dlen.toNat + 1 := by simpa [RawFrame.sized] using hsized
  intro hnil
  have : (swap16 f.payload).length = 0 := by rw [hnil]; rfl
  rw [swap16_length] at this
  omega

/-! ### What an operation of SYNC can do -/

/-- The transitions of `SYNC`: the operation, the state before it and, written out whole, the state after it
(R151 to R156, R160). -/
inductive SyncStep (s : State) : Instr → State → Prop where
  /-- filler is skipped (R151) -/
  | skip (b : Byte) (seeking : s.syncState = .seekingSync) (filler : b = Config.filler)
      (skips : s.cfg.fillerEntersWindow = false) : SyncStep s (.syncPush b) s
  /-- filler enters the window under the parameter of R10 -/
  | shift (b : Byte) (seeking : s.syncState = .seekingSync) (filler : b = Config.filler)
      (enters : s.cfg.fillerEntersWindow = true) :
      SyncStep s (.syncPush b) { s with window := shiftWindow s.window b }
  /-- another byte, which completes no marker (R152) -/
  | seek (b : Byte) (seeking : s.syncState = .seekingSync) (other : b ≠ Config.filler)
      (noMarker : shiftWindow s.window b ≠ Config.syncMarker) :
      SyncStep s (.syncPush b)
        { s with window := shiftWindow s.window b, seekCount := satAdd s.cfg.garbageWidth s.seekCount 1 }
  /-- the byte that completes the marker, `g` garbage bytes after the last frame (R153) -/
  | marker (b : Byte) (g : Nat) (seeking : s.syncState = .seekingSync) (other : b ≠ Config.filler)
      (found : shiftWindow s.window b = Config.syncMarker)
      (garbage : g = satAdd s.cfg.garbageWidth s.seekCount 1 - 2) :
      SyncStep s (.syncPush b)
        { s with garbageCount := satAdd s.cfg.garbageWidth s.garbageCount g
                 syncDiag := s.syncDiag ++ if g = 0 then [] else [.syncLoss g]
                 window := 0, seekCount := 0, hdrBuf := [], syncState := .readingHeader }
  /-- one of the first five header bytes (R154) -/
  | header (b : Byte) (reading : s.syncState = .readingHeader) (more : s.hdrBuf.length + 1 ≠ Config.headerLen) :
      SyncStep s (.syncPush b) { s with hdrBuf := s.hdrBuf ++ [b] }
  /-- the sixth header byte (R155) -/
  | headerEnd (b : Byte) (reading : s.syncState = .readingHeader) (last : s.hdrBuf.length + 1 = Config.headerLen) :
      SyncStep s (.syncPush b)
        { parseHeader { s with hdrBuf := s.hdrBuf ++ [b] } with bodyBuf := [], syncState := .readingBody }
  /-- a body byte before the last (R156) -/
  | body (b : Byte) (reading : s.syncState = .readingBody) (more : s.bodyBuf.length + 1 ≠ bodyNeed s) :
      SyncStep s (.syncPush b) { s with bodyBuf := s.bodyBuf ++ [b] }
  /-- the last body byte, with which the frame `f` is emitted (R156) -/
  | frame (b : Byte) (f : RawFrame) (reading : s.syncState = .readingBody) (last : s.bodyBuf.length + 1 = bodyNeed s)
      (received : f = receivedFrame { s with bodyBuf := s.bodyBuf ++ [b] }) :
      SyncStep s (.syncPush b)
        { s with bodyBuf := s.bodyBuf ++ [b], frameOut := s.frameOut ++ [f]
                 syncDiag := s.syncDiag ++ if f.crcValid then [] else [.crcMismatch s.hAppid s.hSeq]
                 window := 0, seekCount := 0, syncState := .seekingSync }
  /-- the stream ends between frames (R160) -/
  | endSeeking (seeking : s.syncState = .seekingSync) :
      SyncStep s .syncEnd
        { s with garbageCount := satAdd s.cfg.garbageWidth s.garbageCount s.seekCount
                 syncDiag := s.syncDiag ++ if s.seekCount = 0 then [] else [.syncLoss s.seekCount]
                 seekCount := 0, window := 0, hdrBuf := [], bodyBuf := [], syncState := .done }
  /-- the stream ends inside a frame (R160) -/
  | endReading (reading : s.syncState = .readingHeader ∨ s.syncState = .readingBody) :
      SyncStep s .syncEnd
        { s with partialAtEnd := s.partialAtEnd || endsInsideFrame s.syncState
                 window := 0, hdrBuf := [], bodyBuf := [], syncState := .done }

theorem syncStep_skipFiller {s : State} (b : Byte) (seeking : s.syncState = .seekingSync)
    (filler : b = Config.filler) : SyncStep s (.syncPush b) (skipFiller b s) := by
  unfold skipFiller
  cases h : s.cfg.fillerEntersWindow with
  | true => exact .shift b seeking filler h
  | false => exact .skip b seeking filler h

theorem syncStep_seekByte {s : State} (b : Byte) (seeking : s.syncState = .seekingSync) (other : b ≠ Config.filler) :
    SyncStep s (.syncPush b) (seekByte b s) := by
  obtain ⟨noMarker, h⟩ | ⟨found, h⟩ := seekByte_cases b s
  · rw [h]
    exact .seek b seeking other noMarker
  · rw [h, markerFound_eq]
    exact .marker b _ seeking other found rfl

theorem syncStep_headerByte {s : State} (b : Byte) (reading : s.syncState = .readingHeader) :
    SyncStep s (.syncPush b) (headerByte b s) := by
  obtain ⟨more, h⟩ | ⟨last, h⟩ := headerByte_cases b s
  · rw [h]
    exact .header b reading more
  · rw [h]
    exact .headerEnd b reading last

theorem syncStep_bodyByte {s : State} (b : Byte) (reading : s.syncState = .readingBody) :
    SyncStep s (.syncPush b) (bodyByte b s) := by
  obtain ⟨more, h⟩ | ⟨last, h⟩ := bodyByte_cases b s
  · rw [h]
    exact .body b reading more
  · rw [h, completeFrame_eq]
    exact .frame b _ reading last rfl

theorem syncStep_of_execSyncPush {b : Byte} {s t : State} (h : execSyncPush b s = .next t) :
    SyncStep s (.syncPush b) t := by
  obtain ⟨seeking, filler, rfl⟩ | ⟨seeking, other, rfl⟩ | ⟨reading, rfl⟩ | ⟨reading, rfl⟩ := execSyncPush_next h
  · exact syncStep_skipFiller b seeking filler
  · exact syncStep_seekByte b seeking other
  · exact syncStep_headerByte b reading
  · exact syncStep_bodyByte b reading

theorem syncStep_of_execSyncEnd {s t : State} (h : execSyncEnd s = .next t) : SyncStep s .syncEnd t := by
  obtain ⟨seeking, rfl⟩ | ⟨reading, rfl⟩ := execSyncEnd_next h
  · rw [endSeek_eq]
    exact .endSeeking seeking
  · exact .endReading reading

/-! ### What an operation of COL can do -/

/-- `start_seq` once `f` has opened or continued the run (R181). -/
def runStart (f : RawFrame) (s : State) : BitVec 14 := if s.acc = [] then f.seq else s.startSeq

/-- The event of a frame whose application id is not the run's (R182). -/
def driftEvents (f : RawFrame) (s : State) : List ColEvent :=
  if s.acc = [] ∨ f.appid = s.lastAppid then [] else [.applicationIdDrift s.lastAppid f.appid f.seq]

theorem openRun_eq_runStart (f : RawFrame) (s : State) :
    openRun f s = { s with startSeq := runStart f s, colDiag := s.colDiag ++ driftEvents f s } :=
  openRun_eq f s

/-- The transitions of `COL` (R180 to R188), the state after each written out whole. -/
inductive ColStep (s : State) : Instr → State → Prop where
  /-- a frame that keeps the run open (R185) -/
  | fragment (f : RawFrame) (notDone : s.colDone = false) (sized : f.sized = true)
      (admitted : admitsAcc s.cfg s.acc f.payload.length = true) (more : isTerminal f.gflags = false) :
      ColStep s (.colPush f)
        { s with startSeq := runStart f s, colDiag := s.colDiag ++ driftEvents f s, lastAppid := f.appid
                 acc := s.acc ++ swap16 f.payload, singleFragment := false }
  /-- a terminal frame, with which the packet is emitted (R184) -/
  | packet (f : RawFrame) (notDone : s.colDone = false) (sized : f.sized = true)
      (admitted : admitsAcc s.cfg s.acc f.payload.length = true) (last : isTerminal f.gflags = true) :
      ColStep s (.colPush f)
        { s with startSeq := runStart f s, colDiag := s.colDiag ++ driftEvents f s, lastAppid := f.appid
                 packetOut := s.packetOut ++
                   [{ startSeq := runStart f s, endSeq := f.seq, appid := f.appid
                      payload := s.acc ++ swap16 f.payload, singleFragment := s.singleFragment }]
                 acc := [], singleFragment := true }
  /-- the end of the stream (R188) -/
  | finish (notDone : s.colDone = false) :
      ColStep s .colEnd
        { s with residualAtEnd := residualAfterEnd s.acc s.residualAtEnd, acc := [], colDone := true }

theorem colStep_of_execColPush {f : RawFrame} {s t : State} (h : execColPush f s = .next t) :
    ColStep s (.colPush f) t := by
  obtain ⟨notDone, sized, -, admitted, rfl⟩ := execColPush_next h
  cases terminal : isTerminal f.gflags with
  | false =>
    rw [collate_of_not_terminal f s terminal, openRun_eq_runStart]
    exact .fragment f notDone sized admitted terminal
  | true =>
    rw [collate_of_terminal f s terminal, openRun_eq_runStart]
    exact .packet f notDone sized admitted terminal

theorem colStep_of_execColEnd {s t : State} (h : execColEnd s = .next t) : ColStep s .colEnd t := by
  obtain ⟨notDone, rfl⟩ := execColEnd_next h
  exact .finish notDone

/-! ### What exec can do, unit by unit -/

/-- A next state of `exec` is a transition of the operation's own unit, or `RESET`'s. -/
theorem exec_cases {i : Instr} {s t : State} (h : exec i s = .next t) :
    (unitOf i = some .sync ∧ SyncStep s i t) ∨ (unitOf i = some .col ∧ ColStep s i t) ∨
    (unitOf i = some .codec ∧ ∃ r, t = deliver r s) ∨ (i = .reset ∧ t = resetUnits s) := by
  obtain ⟨b, rfl, h⟩ | ⟨rfl, h⟩ | ⟨f, rfl, h⟩ | ⟨rfl, h⟩ | hcodec | hreset := exec_next h
  · exact .inl ⟨rfl, syncStep_of_execSyncPush h⟩
  · exact .inl ⟨rfl, syncStep_of_execSyncEnd h⟩
  · exact .inr (.inl ⟨rfl, colStep_of_execColPush h⟩)
  · exact .inr (.inl ⟨rfl, colStep_of_execColEnd h⟩)
  · exact .inr (.inr (.inl hcodec))
  · exact .inr (.inr (.inr hreset))

/-! ### The registers of each unit (R20) -/

/-- `s` with everything but the parameters and the registers and outputs of `SYNC` at its reset value. -/
def syncPart (s : State) : State :=
  { s with acc := [], lastAppid := 0, startSeq := 0, singleFragment := true, packetOut := [], colDiag := []
           colDone := false, residualAtEnd := false, cmdIn := [], result := .none, delivered := 0 }

/-- `s` with everything but the parameters and the registers and outputs of `COL` at its reset value. -/
def colPart (s : State) : State :=
  { State.reset with
    acc := s.acc, lastAppid := s.lastAppid, startSeq := s.startSeq, singleFragment := s.singleFragment
    packetOut := s.packetOut, colDiag := s.colDiag, colDone := s.colDone, residualAtEnd := s.residualAtEnd
    cfg := s.cfg }

theorem syncStep_frame {i : Instr} {s t : State} (h : SyncStep s i t) :
    t = { s with syncState := t.syncState, window := t.window, seekCount := t.seekCount,
                 garbageCount := t.garbageCount, hdrBuf := t.hdrBuf, hVersion := t.hVersion, hType := t.hType,
                 hSec := t.hSec, hAppid := t.hAppid, hGflags := t.hGflags, hSeq := t.hSeq, hDlen := t.hDlen,
                 bodyBuf := t.bodyBuf, partialAtEnd := t.partialAtEnd, frameOut := t.frameOut,
                 syncDiag := t.syncDiag } := by
  cases h <;> rfl

theorem colStep_frame {i : Instr} {s t : State} (h : ColStep s i t) :
    t = { s with acc := t.acc, lastAppid := t.lastAppid, startSeq := t.startSeq,
                 singleFragment := t.singleFragment, packetOut := t.packetOut, colDiag := t.colDiag,
                 colDone := t.colDone, residualAtEnd := t.residualAtEnd } := by
  cases h <;> rfl

theorem syncStep_colPart {i : Instr} {s t : State} (h : SyncStep s i t) : colPart t = colPart s :=
  (congrArg colPart (syncStep_frame h)).trans rfl

theorem colStep_syncPart {i : Instr} {s t : State} (h : ColStep s i t) : syncPart t = syncPart s :=
  (congrArg syncPart (colStep_frame h)).trans rfl

/-- The invariant of `SYNC` speaks of the parameters and of `SYNC` alone. -/
theorem syncInv_syncPart (s : State) : SyncInv (syncPart s) ↔ SyncInv s := by
  have hparsed : parseHeader (syncPart s) = syncPart s ↔ parseHeader s = s := by
    rw [parseHeader_eq_self_iff, parseHeader_eq_self_iff]
    exact Iff.rfl
  constructor
  · intro h
    exact { h with
      reading_body := fun hb =>
        let ⟨hhdr, hbody, hp⟩ := h.reading_body hb
        ⟨hhdr, hbody, hparsed.1 hp⟩ }
  · intro h
    exact { h with
      reading_body := fun hb =>
        let ⟨hhdr, hbody, hp⟩ := h.reading_body hb
        ⟨hhdr, hbody, hparsed.2 hp⟩ }

/-- The invariant of `COL` speaks of the parameters and of `COL` alone. -/
theorem colInv_colPart (s : State) : ColInv (colPart s) ↔ ColInv s :=
  ⟨fun h => { h with }, fun h => { h with }⟩

theorem syncInv_of_syncPart_eq {s t : State} (heq : syncPart t = syncPart s) (h : SyncInv s) : SyncInv t := by
  rw [← syncInv_syncPart, heq, syncInv_syncPart]
  exact h

theorem colInv_of_colPart_eq {s t : State} (heq : colPart t = colPart s) (h : ColInv s) : ColInv t := by
  rw [← colInv_colPart, heq, colInv_colPart]
  exact h

/-! ### The transitions of SYNC keep its invariant -/

/-- Filler in the window is no half-seen marker. -/
theorem low_shiftWindow_filler (w : Word16) : (shiftWindow w Config.filler).extractLsb' 0 8 ≠ 0xEC#8 := by
  rw [shiftWindow_low]
  decide

theorem satAdd_one_ne_zero {w : Nat} (x : Nat) (hw : 0 < w) : satAdd w x 1 ≠ 0 := by
  have := Nat.one_lt_two_pow hw.ne'
  unfold satAdd
  omega

theorem bodyNeed_le (s : State) : bodyNeed s ≤ max s.cfg.maxPayload (2 ^ 16) + Config.crcLen := by
  have := s.hDlen.isLt
  unfold bodyNeed
  omega

/-- Before `DONE` no partial frame has been flagged (R29). -/
theorem partialAtEnd_eq_false {s : State} (h : SyncInv s) (hs : s.syncState ≠ .done) : s.partialAtEnd = false := by
  by_contra hp
  exact hs (h.partial_done (by simpa using hp))

theorem syncInv_shift {s : State} (h : SyncInv s) (seeking : s.syncState = .seekingSync) :
    SyncInv { s with window := shiftWindow s.window Config.filler } :=
  { h with
    reading_body := by simp [seeking]
    not_seeking := by simp [seeking]
    half_marker := fun hw => absurd hw (low_shiftWindow_filler s.window) }

theorem syncInv_seek {s : State} (h : SyncInv s) (b : Byte) (seeking : s.syncState = .seekingSync) :
    SyncInv { s with window := shiftWindow s.window b, seekCount := satAdd s.cfg.garbageWidth s.seekCount 1 } :=
  { h with
    seek_width := satAdd_lt _ _ _
    reading_body := by simp [seeking]
    not_seeking := by simp [seeking]
    half_marker := fun _ hw => satAdd_one_ne_zero s.seekCount hw }

theorem syncInv_marker {s : State} (h : SyncInv s) (g : Nat) (es : List SyncEvent)
    (seeking : s.syncState = .seekingSync) :
    SyncInv { s with garbageCount := satAdd s.cfg.garbageWidth s.garbageCount g, syncDiag := s.syncDiag ++ es
                     window := 0, seekCount := 0, hdrBuf := [], syncState := .readingHeader } :=
  { h with
    hdr_cap := by simp
    seek_width := Nat.two_pow_pos _
    garbage_width := satAdd_lt _ _ _
    reading_header := by simp [Config.headerLen]
    reading_body := by simp
    not_seeking := by simp
    half_marker := by simp
    partial_done := by simp [partialAtEnd_eq_false h, seeking] }

theorem syncInv_header {s : State} (h : SyncInv s) (b : Byte) (reading : s.syncState = .readingHeader)
    (more : s.hdrBuf.length + 1 ≠ Config.headerLen) : SyncInv { s with hdrBuf := s.hdrBuf ++ [b] } := by
  have hfill := h.reading_header reading
  have hlen : (s.hdrBuf ++ [b]).length < Config.headerLen := by
    rw [List.length_append, List.length_singleton]
    omega
  exact { h with
    hdr_cap := hlen.le
    reading_header := fun _ => hlen
    reading_body := by simp [reading] }

theorem syncInv_headerEnd {s : State} (h : SyncInv s) (b : Byte) (reading : s.syncState = .readingHeader)
    (last : s.hdrBuf.length + 1 = Config.headerLen) :
    SyncInv { parseHeader { s with hdrBuf := s.hdrBuf ++ [b] } with bodyBuf := [], syncState := .readingBody } := by
  have hlen : (s.hdrBuf ++ [b]).length = Config.headerLen := by simpa using last
  have hclean := h.not_seeking (by simp [reading])
  exact {
    hdr_cap := hlen.le
    body_cap := Nat.zero_le _
    seek_width := h.seek_width
    garbage_width := h.garbage_width
    reading_header := by simp
    reading_body := fun _ => ⟨hlen, Nat.succ_pos _, rfl⟩
    not_seeking := fun _ => hclean
    half_marker := h.half_marker
    frames := h.frames
    partial_done := fun hp => absurd (h.partial_done hp) (by simp [reading]) }

theorem syncInv_body {s : State} (h : SyncInv s) (b : Byte) (reading : s.syncState = .readingBody)
    (more : s.bodyBuf.length + 1 ≠ bodyNeed s) : SyncInv { s with bodyBuf := s.bodyBuf ++ [b] } := by
  obtain ⟨hhdr, hfill, hparsed⟩ := h.reading_body reading
  have hlen : (s.bodyBuf ++ [b]).length < bodyNeed s := by
    rw [List.length_append, List.length_singleton]
    omega
  exact { h with
    body_cap := hlen.le.trans (bodyNeed_le s)
    reading_body := fun _ => ⟨hhdr, hlen, (parseHeader_eq_self_iff _).2 ((parseHeader_eq_self_iff s).1 hparsed)⟩ }

theorem syncInv_frame {s : State} (h : SyncInv s) (b : Byte) (es : List SyncEvent)
    (reading : s.syncState = .readingBody) (last : s.bodyBuf.length + 1 = bodyNeed s) :
    SyncInv { s with bodyBuf := s.bodyBuf ++ [b]
                     frameOut := s.frameOut ++ [receivedFrame { s with bodyBuf := s.bodyBuf ++ [b] }]
                     syncDiag := s.syncDiag ++ es
                     window := 0, seekCount := 0, syncState := .seekingSync } := by
  obtain ⟨hhdr, -, hparsed⟩ := h.reading_body reading
  have hlen : (s.bodyBuf ++ [b]).length = bodyNeed s := by simpa using last
  have hparsed' : parseHeader { s with bodyBuf := s.bodyBuf ++ [b] } = { s with bodyBuf := s.bodyBuf ++ [b] } :=
    (parseHeader_eq_self_iff _).2 ((parseHeader_eq_self_iff s).1 hparsed)
  exact { h with
    body_cap := hlen.le.trans (bodyNeed_le s)
    seek_width := Nat.two_pow_pos _
    reading_header := by simp
    reading_body := by simp
    not_seeking := by simp
    half_marker := by simp
    frames := by
      intro f hf
      obtain old | new := List.mem_append.1 hf
      · exact h.frames f old
      · obtain rfl := List.mem_singleton.1 new
        exact ⟨receivedFrame_sized hlen, receivedFrame_crcValid hhdr hparsed'⟩
    partial_done := by simp [partialAtEnd_eq_false h, reading] }

/-- Every `SYNC.END` leaves the buffers empty and the search clean (R160). -/
theorem syncInv_done {s : State} (h : SyncInv s) (g : Nat) (es : List SyncEvent) (p : Bool)
    (width : g < 2 ^ s.cfg.garbageWidth) :
    SyncInv { s with garbageCount := g, syncDiag := s.syncDiag ++ es, partialAtEnd := p, seekCount := 0, window := 0
                     hdrBuf := [], bodyBuf := [], syncState := .done } :=
  { h with
    hdr_cap := Nat.zero_le _
    body_cap := Nat.zero_le _
    seek_width := Nat.two_pow_pos _
    garbage_width := width
    reading_header := by simp
    reading_body := by simp
    not_seeking := by simp
    half_marker := by simp
    partial_done := by simp }

theorem syncInv_endReading {s : State} (h : SyncInv s)
    (reading : s.syncState = .readingHeader ∨ s.syncState = .readingBody) (p : Bool) :
    SyncInv { s with partialAtEnd := p, window := 0, hdrBuf := [], bodyBuf := [], syncState := .done } := by
  obtain ⟨-, hseek⟩ := h.not_seeking (by rcases reading with hs | hs <;> simp [hs])
  have hdone := syncInv_done h s.garbageCount [] p h.garbage_width
  rwa [List.append_nil, ← hseek] at hdone

theorem syncStep_keeps_syncInv {i : Instr} {s t : State} (h : SyncInv s) (hstep : SyncStep s i t) : SyncInv t := by
  cases hstep with
  | skip => exact h
  | shift b seeking filler enters => exact filler ▸ syncInv_shift h seeking
  | seek b seeking other noMarker => exact syncInv_seek h b seeking
  | marker b g seeking other found garbage => exact syncInv_marker h g _ seeking
  | header b reading more => exact syncInv_header h b reading more
  | headerEnd b reading last => exact syncInv_headerEnd h b reading last
  | body b reading more => exact syncInv_body h b reading more
  | frame b f reading last received => exact received ▸ syncInv_frame h b _ reading last
  | endSeeking seeking => exact syncInv_done h _ _ s.partialAtEnd (satAdd_lt _ _ _)
  | endReading reading => exact syncInv_endReading h reading _

/-- `SYNC` never takes a frame back (R31). -/
theorem syncStep_frameOut_length {i : Instr} {s t : State} (h : SyncStep s i t) :
    s.frameOut.length ≤ t.frameOut.length := by
  cases h <;> simp [parseHeader]

/-! ### The transitions of COL keep its invariant -/

theorem colInv_fragment {s : State} (h : ColInv s) (f : RawFrame) (seq : BitVec 14) (es : List ColEvent)
    (notDone : s.colDone = false) (sized : f.sized = true)
    (admitted : admitsAcc s.cfg s.acc f.payload.length = true) :
    ColInv { s with startSeq := seq, colDiag := s.colDiag ++ es, lastAppid := f.appid
                    acc := s.acc ++ swap16 f.payload, singleFragment := false } :=
  { h with
    done_empty := by simp [notDone]
    single_iff := by simp [swap16_ne_nil sized]
    acc_cap := by
      intro m hm
      have hm' : s.cfg.accMax = some m := hm
      have hcap : s.acc.length + f.payload.length ≤ m := by simpa [admitsAcc, hm'] using admitted
      simpa [swap16_length] using hcap }

theorem colInv_packet {s : State} (h : ColInv s) (f : RawFrame) (p : LogicalPacket) (seq : BitVec 14)
    (es : List ColEvent) (sized : f.sized = true) (collected : p.payload = s.acc ++ swap16 f.payload) :
    ColInv { s with startSeq := seq, colDiag := s.colDiag ++ es, lastAppid := f.appid
                    packetOut := s.packetOut ++ [p], acc := [], singleFragment := true } :=
  { h with
    done_empty := by simp
    single_iff := by simp
    acc_cap := by simp
    packets := by
      intro q hq
      obtain old | new := List.mem_append.1 hq
      · exact h.packets q old
      · obtain rfl := List.mem_singleton.1 new
        simp [collected, swap16_ne_nil sized] }

theorem colInv_finish {s : State} (h : ColInv s) (residual : Bool) :
    ColInv { s with residualAtEnd := residual, acc := [], colDone := true } :=
  { h with
    done_empty := by simp
    single_iff := by simp
    residual_done := by simp
    acc_cap := by simp }

theorem colStep_keeps_colInv {i : Instr} {s t : State} (h : ColInv s) (hstep : ColStep s i t) : ColInv t := by
  cases hstep with
  | fragment f notDone sized admitted more => exact colInv_fragment h f _ _ notDone sized admitted
  | packet f notDone sized admitted last => exact colInv_packet h f _ _ _ sized rfl
  | finish notDone => exact colInv_finish h _

/-! ### The whole invariant (R22 to R37, R75, R145, R360) -/

/-- The reset values of R43 meet the invariant for every choice of the parameters. -/
theorem inv_resetUnits (s : State) : Inv (resetUnits s) where
  sync := by constructor <;> simp
  col := by constructor <;> simp
  delivered := Nat.le_refl 0

theorem inv_of_parts_eq {s t : State} (h : Inv s) (hsync : syncPart t = syncPart s) (hcol : colPart t = colPart s)
    (hdelivered : t.delivered ≤ t.frameOut.length) : Inv t where
  sync := syncInv_of_syncPart_eq hsync h.sync
  col := colInv_of_colPart_eq hcol h.col
  delivered := hdelivered

/-- The commands presented are in no part of the invariant. -/
theorem inv_withCmdIn {s : State} (h : Inv s) (cmd : List Byte) : Inv { s with cmdIn := cmd } :=
  inv_of_parts_eq h rfl rfl h.delivered

theorem inv_deliver {s : State} (h : Inv s) (r : Result) : Inv (deliver r s) :=
  inv_of_parts_eq h rfl rfl h.delivered

/-- The coupling counts a delivery only where `frame_out` still holds a frame to deliver (R75). -/
theorem inv_noteDelivery {s : State} {i : Instr} (h : Inv s) (hi : coupledOp s = some i) : Inv (noteDelivery i s) := by
  obtain ⟨-, -, ⟨f, hf, rfl⟩ | ⟨-, -, rfl⟩⟩ := coupledOp_some hi
  · obtain ⟨hlt, -⟩ := List.getElem?_eq_some_iff.1 hf
    exact inv_of_parts_eq h rfl rfl hlt
  · exact h

theorem syncStep_keeps_inv {i : Instr} {s t : State} (h : Inv s) (hstep : SyncStep s i t) : Inv t where
  sync := syncStep_keeps_syncInv h.sync hstep
  col := colInv_of_colPart_eq (syncStep_colPart hstep) h.col
  delivered := by
    have hkept : t.delivered = s.delivered := by rw [syncStep_frame hstep]
    rw [hkept]
    exact h.delivered.trans (syncStep_frameOut_length hstep)

theorem colStep_keeps_inv {i : Instr} {s t : State} (h : Inv s) (hstep : ColStep s i t) : Inv t where
  sync := syncInv_of_syncPart_eq (colStep_syncPart hstep) h.sync
  col := colStep_keeps_colInv h.col hstep
  delivered := by
    rw [colStep_frame hstep]
    exact h.delivered

theorem exec_keeps_inv {i : Instr} {s t : State} (h : Inv s) (hexec : exec i s = .next t) : Inv t := by
  obtain ⟨-, hstep⟩ | ⟨-, hstep⟩ | ⟨-, r, rfl⟩ | ⟨-, rfl⟩ := exec_cases hexec
  · exact syncStep_keeps_inv h hstep
  · exact colStep_keeps_inv h hstep
  · exact inv_deliver h r
  · exact inv_resetUnits s

/-- Settles O60: the three sources of a step's operation (`step_next`) each start from a state of the invariant, and
`exec` keeps it (`exec_keeps_inv`). -/
theorem stepKeepsTheInvariant : Obligations.StepKeepsTheInvariant := by
  intro s t h hstep
  obtain ⟨i, hi, hexec⟩ | ⟨-, i, rest, -, hexec⟩ | ⟨-, -, rfl⟩ := step_next hstep
  · exact exec_keeps_inv (inv_noteDelivery h hi) hexec
  · exact exec_keeps_inv (inv_withCmdIn h rest) hexec
  · exact h

/-- Settles O59: the reset state is what `RESET` leaves of itself. -/
theorem resetSatisfiesTheInvariant : Obligations.ResetSatisfiesTheInvariant :=
  inv_resetUnits State.reset

/-! ### The cycle of sync_state (R21) -/

/-- `SYNC.PUSH` moves `sync_state` only round the cycle of R21. -/
theorem syncPush_syncState {b : Byte} {s t : State} (h : SyncStep s (.syncPush b) t) :
    t.syncState = s.syncState ∨
      (s.syncState = .seekingSync ∧ t.syncState = .readingHeader) ∨
      (s.syncState = .readingHeader ∧ t.syncState = .readingBody) ∨
      (s.syncState = .readingBody ∧ t.syncState = .seekingSync) := by
  cases h with
  | skip | shift | seek | header | body => exact .inl rfl
  | marker b g seeking => exact .inr (.inl ⟨seeking, rfl⟩)
  | headerEnd b reading => exact .inr (.inr (.inl ⟨reading, rfl⟩))
  | frame b f reading => exact .inr (.inr (.inr ⟨reading, rfl⟩))

/-- No operation of `SYNC` runs in `DONE` (R157, R160). -/
theorem syncStep_not_done {i : Instr} {s t : State} (h : SyncStep s i t) : s.syncState ≠ .done := by
  cases h with
  | skip b hs | shift b hs | seek b hs | marker b g hs | header b hs | headerEnd b hs | body b hs | frame b f hs
  | endSeeking hs => simp [hs]
  | endReading hs => rcases hs with hs | hs <;> simp [hs]

/-- Of the operations of `SYNC`, only `SYNC.END` enters `DONE` (R160). -/
theorem syncStep_enters_done {i : Instr} {s t : State} (h : SyncStep s i t) (done : t.syncState = .done) :
    i = .syncEnd := by
  cases h with
  | endSeeking | endReading => rfl
  | skip b hs | shift b hs | seek b hs | header b hs | body b hs => cases hs.symm.trans done
  | marker | headerEnd | frame => cases done

theorem syncStep_instr {i : Instr} {s t : State} (h : SyncStep s i t) : (∃ b, i = .syncPush b) ∨ i = .syncEnd := by
  cases h with
  | skip b | shift b | seek b | marker b | header b | headerEnd b | body b | frame b => exact .inl ⟨b, rfl⟩
  | endSeeking | endReading => exact .inr rfl

theorem colStep_syncState {i : Instr} {s t : State} (h : ColStep s i t) : t.syncState = s.syncState := by
  rw [colStep_frame h]

/-- Besides `SYNC`, only `RESET` writes `sync_state`. -/
theorem exec_syncState_cases {i : Instr} {s t : State} (h : exec i s = .next t) :
    SyncStep s i t ∨ t.syncState = s.syncState ∨ (i = .reset ∧ t = resetUnits s) := by
  obtain ⟨-, hstep⟩ | ⟨-, hstep⟩ | ⟨-, r, rfl⟩ | hreset := exec_cases h
  · exact .inl hstep
  · exact .inr (.inl (colStep_syncState hstep))
  · exact .inr (.inl rfl)
  · exact .inr (.inr hreset)

/-- Settles O17: the transitions of `SYNC` move `sync_state` as R21 says, those of the other units keep it, and
`RESET` is the rest. -/
theorem syncStateIsWrittenAsTheRuleSays : Obligations.SyncStateIsWrittenAsTheRuleSays := by
  refine ⟨⟨rfl, rfl, rfl, rfl, rfl⟩, fun i s t h => ?_⟩
  obtain hstep | hkept | ⟨rfl, rfl⟩ := exec_syncState_cases h
  · refine ⟨fun _ => ?_, fun _ done => syncStep_enters_done hstep done,
      fun done => absurd done (syncStep_not_done hstep), ?_⟩
    · obtain hpush | hend := syncStep_instr hstep
      · exact .inl hpush
      · exact .inr (.inl hend)
    · rintro ⟨b, rfl⟩
      exact syncPush_syncState hstep
  · exact ⟨fun hne => absurd hkept hne, fun hne done => absurd (hkept ▸ done) hne,
      fun done hne => absurd (hkept.trans done) hne, fun _ => .inl hkept⟩
  · exact ⟨fun _ => .inr (.inr rfl), fun _ done => (nomatch done), fun _ _ => rfl, fun ⟨_, hb⟩ => nomatch hb⟩

/-! ### CODEC (R38) -/

/-- A meaning that changes the result alone and takes it from the parameters alone. -/
def Stateless (m : State → Out) : Prop :=
  ∀ s t, m s = .next t → ∃ r, t = deliver r s ∧ ∀ s', s'.cfg = s.cfg → m s' = .next (deliver r s')

theorem stateless_deliver (f : Config → Result) : Stateless fun s => .next (deliver (f s.cfg) s) := by
  intro s t h
  exact ⟨f s.cfg, by simpa using h.symm, fun s' hcfg => by simp only [hcfg]⟩

theorem stateless_arrayOp (n : Nat) (f : Config → Result) : Stateless fun s => arrayOp n (f s.cfg) s := by
  intro s t h
  obtain ⟨admitted, rfl⟩ := (arrayOp_next_iff n (f s.cfg) s t).1 h
  refine ⟨f s.cfg, rfl, fun s' hcfg => ?_⟩
  simp only [hcfg]
  exact arrayOp_of_admits _ (hcfg ▸ admitted)

/-- A check of the operands alone (R226, R227) comes before a stateless meaning. -/
theorem stateless_unless (c : Prop) [Decidable c] (r : Refusal) {m : State → Out} (hm : Stateless m) :
    Stateless fun s => if c then .refused r else m s := by
  by_cases hc : c
  · simp [Stateless, hc]
  · simpa [hc] using hm

theorem exec_codec_stateless {i : Instr} (hi : unitOf i = some .codec) : Stateless (exec i) := by
  cases i with
  | enc10p6 v => exact stateless_deliver fun _ => .code (enc10p6 v)
  | dec10p6 c => exact stateless_deliver fun _ => .value (dec10p6 c)
  | enc4to5 v0 v1 v2 v3 =>
    exact stateless_deliver fun _ =>
      .words (enc4to5W0 v0 v1 v2 v3) (laneWord v0) (laneWord v1) (laneWord v2) (laneWord v3)
  | dec4to5 w0 w1 w2 w3 w4 =>
    exact stateless_deliver fun _ =>
      .values (decLane (nibble w0 0) w1) (decLane (nibble w0 1) w2) (decLane (nibble w0 2) w3)
        (decLane (nibble w0 3) w4)
  | encSlzU a =>
    exact stateless_arrayOp a.length fun cfg => .bytes (encSlz cfg.slzCollapseBeforeCompare (a.map unsignedElem))
  | encSlzS a =>
    exact stateless_arrayOp a.length fun cfg => .bytes (encSlz cfg.slzCollapseBeforeCompare (a.map signedElem))
  | decSlzU buf n => exact stateless_arrayOp n fun _ => slzResult (decSlz false buf n)
  | decSlzS buf n => exact stateless_arrayOp n fun _ => slzResult (decSlz true buf n)
  | enc10p6Buf a => exact stateless_arrayOp a.length fun cfg => .bytes (enc10p6Buf cfg.bufWordOrder a)
  | dec10p6Buf buf n => exact stateless_arrayOp n fun cfg => arrayResult (dec10p6Buf cfg.bufWordOrder buf n)
  | enc4to5Buf a =>
    exact stateless_unless _ _ (stateless_arrayOp a.length fun cfg => .bytes (enc4to5Groups cfg.bufWordOrder a))
  | dec4to5Buf buf n =>
    exact stateless_unless _ _ (stateless_arrayOp n fun cfg => arrayResult (dec4to5Buf cfg.bufWordOrder buf n))
  | crc16 buf => exact stateless_deliver fun cfg => .code (crc16 cfg.crcXorout buf)
  | crc16Step c b => exact stateless_deliver fun _ => .code (crc16Step c b)
  | syncPush | syncEnd | colPush | colEnd | reset | frameMarker | frameW0 | frameW1 | frameW2 | code10p6 | code4to5W0
  | code4to5Wi | slzHdrU | slzHdrS | slzWord => cases hi

/-- Settles O50: every meaning of `CODEC` is stateless. -/
theorem codecOperationsAreStateless : Obligations.CodecOperationsAreStateless := by
  intro i s t hi h
  obtain ⟨r, rfl, hsame⟩ := exec_codec_stateless hi s t h
  exact ⟨rfl, hsame⟩

/-! ### Frames of the units (R20) -/

theorem exec_cfg_cmdIn {i : Instr} {s t : State} (h : exec i s = .next t) : t.cfg = s.cfg ∧ t.cmdIn = s.cmdIn := by
  obtain ⟨-, hstep⟩ | ⟨-, hstep⟩ | ⟨-, r, rfl⟩ | ⟨-, rfl⟩ := exec_cases h
  · rw [syncStep_frame hstep]
    exact ⟨rfl, rfl⟩
  · rw [colStep_frame hstep]
    exact ⟨rfl, rfl⟩
  · exact ⟨rfl, rfl⟩
  · exact ⟨rfl, rfl⟩

theorem syncStep_of_exec {i : Instr} {s t : State} (hi : unitOf i = some .sync) (h : exec i s = .next t) :
    SyncStep s i t := by
  obtain ⟨-, hstep⟩ | ⟨hi', -⟩ | ⟨hi', -⟩ | ⟨rfl, -⟩ := exec_cases h
  · exact hstep
  · cases hi.symm.trans hi'
  · cases hi.symm.trans hi'
  · cases hi

theorem colStep_of_exec {i : Instr} {s t : State} (hi : unitOf i = some .col) (h : exec i s = .next t) :
    ColStep s i t := by
  obtain ⟨hi', -⟩ | ⟨-, hstep⟩ | ⟨hi', -⟩ | ⟨rfl, -⟩ := exec_cases h
  · cases hi.symm.trans hi'
  · exact hstep
  · cases hi.symm.trans hi'
  · cases hi

/-- Settles O52: the frame of each unit's transitions, and what every operation keeps. -/
theorem operationsTouchTheirOwnUnit : Obligations.OperationsTouchTheirOwnUnit := fun _ _ _ h =>
  ⟨fun hi => syncStep_frame (syncStep_of_exec hi h), fun hi => colStep_frame (colStep_of_exec hi h), exec_cfg_cmdIn h⟩

/-! ### Outputs only grow (R25, R31, R37) -/

theorem syncStep_outputs_grow {i : Instr} {s t : State} (width : s.garbageCount < 2 ^ s.cfg.garbageWidth)
    (h : SyncStep s i t) :
    s.frameOut <+: t.frameOut ∧ s.syncDiag <+: t.syncDiag ∧ s.garbageCount ≤ t.garbageCount := by
  cases h with
  | skip | shift | seek | header | headerEnd | body | endReading =>
    exact ⟨List.prefix_rfl, List.prefix_rfl, le_rfl⟩
  | marker | endSeeking => exact ⟨List.prefix_rfl, List.prefix_append _ _, le_satAdd _ width⟩
  | frame => exact ⟨List.prefix_append _ _, List.prefix_append _ _, le_rfl⟩

theorem colStep_outputs_grow {i : Instr} {s t : State} (h : ColStep s i t) :
    s.packetOut <+: t.packetOut ∧ s.colDiag <+: t.colDiag := by
  cases h with
  | fragment => exact ⟨List.prefix_rfl, List.prefix_append _ _⟩
  | packet => exact ⟨List.prefix_append _ _, List.prefix_append _ _⟩
  | finish => exact ⟨List.prefix_rfl, List.prefix_rfl⟩

/-- Settles O54: each unit's transitions extend its own outputs and, by their frame, keep those of the other. -/
theorem outputsOnlyGrow : Obligations.OutputsOnlyGrow := by
  intro i s t width h notReset
  obtain ⟨-, hstep⟩ | ⟨-, hstep⟩ | ⟨-, r, rfl⟩ | ⟨hi, -⟩ := exec_cases h
  · obtain ⟨hframe, hdiag, hgarbage⟩ := syncStep_outputs_grow width hstep
    rw [syncStep_frame hstep]
    exact ⟨hframe, hdiag, List.prefix_rfl, List.prefix_rfl, hgarbage⟩
  · obtain ⟨hpacket, hdiag⟩ := colStep_outputs_grow hstep
    rw [colStep_frame hstep]
    exact ⟨List.prefix_rfl, List.prefix_rfl, hpacket, hdiag, le_rfl⟩
  · exact ⟨List.prefix_rfl, List.prefix_rfl, List.prefix_rfl, List.prefix_rfl, le_rfl⟩
  · exact absurd hi notReset

/-! ### Status registers (R40) -/

/-- A flag is read as the bit 1 or 0. -/
theorem toNat_eq_ite (b : Bool) : b.toNat = if b = true then 1 else 0 := cond_eq_ite b 1 0

/-- Settles O58: each read is the register's code, number or flag bit; at reset it is R43's. -/
theorem statusRegistersReadTheState : Obligations.StatusRegistersReadTheState := by
  refine ⟨fun s => ⟨?_, rfl, toNat_eq_ite _, toNat_eq_ite _, toNat_eq_ite _, toNat_eq_ite _, rfl, rfl, rfl⟩, ?_⟩
  · cases hs : s.syncState <;> simp [readStatus, hs, SyncState.code]
  · exact ⟨rfl, rfl, rfl, rfl, rfl, rfl, rfl, rfl, rfl⟩

end Sys2Proof.Proofs.UnitState
end

section
/-! PROOFS of family 20_memory: the payload swap, what a codec (c) decoder reads of its buffer, operations of different
units, and the coupling of `SYNC` and `COL`. -/

namespace Sys2Proof.Proofs.Memory

open Sys2Proof Sys2Proof.Machine Sys2Proof.Proofs.UnitState

/-! ### The payload swap (R66, R67) -/

theorem swap16_cons_cons (b0 b1 : Byte) (rest : List Byte) : swap16 (b0 :: b1 :: rest) = b1 :: b0 :: swap16 rest := rfl

/-- A sequence without a pair is copied. -/
theorem swap16_of_short {bs : List Byte} (hshort : ∀ b0 b1 rest, bs = b0 :: b1 :: rest → False) :
    swap16 bs = bs := by
  rw [swap16]
  exact hshort

theorem length_le_one_of_short {bs : List Byte} (hshort : ∀ b0 b1 rest, bs = b0 :: b1 :: rest → False) :
    bs.length ≤ 1 := by
  match bs, hshort with
  | [], _ => exact Nat.zero_le 1
  | [_], _ => exact Nat.le_refl 1
  | b0 :: b1 :: rest, hshort => exact (hshort b0 b1 rest rfl).elim

theorem swap16_swap16 (bs : List Byte) : swap16 (swap16 bs) = bs := by
  induction bs using swap16.induct with
  | case1 b0 b1 rest ih => simp only [swap16_cons_cons, ih]
  | case2 rest hshort => rw [swap16_of_short hshort, swap16_of_short hshort]

theorem getElem?_swap16_pair (bs : List Byte) (i : Nat) (hi : 2 * i + 1 < bs.length) :
    (swap16 bs)[2 * i]? = bs[2 * i + 1]? ∧ (swap16 bs)[2 * i + 1]? = bs[2 * i]? := by
  induction bs using swap16.induct generalizing i with
  | case1 b0 b1 rest ih =>
    cases i with
    | zero => exact ⟨rfl, rfl⟩
    | succ i => exact ih i (by simp only [List.length_cons] at hi; omega)
  | case2 rest hshort =>
    have := length_le_one_of_short hshort
    omega

theorem getElem?_swap16_last (bs : List Byte) (hodd : bs.length % 2 = 1) :
    (swap16 bs)[bs.length - 1]? = bs[bs.length - 1]? := by
  induction bs using swap16.induct with
  | case1 b0 b1 rest ih =>
    have hrest : rest.length % 2 = 1 := by simp only [List.length_cons] at hodd; omega
    have hlast : (b0 :: b1 :: rest).length - 1 = rest.length - 1 + 2 := by simp only [List.length_cons]; omega
    rw [hlast]
    exact ih hrest
  | case2 rest hshort => rw [swap16_of_short hshort]

/-- Settles O20, each clause by induction on the pairs. -/
theorem swapExchangesPairs : Obligations.SwapExchangesPairs := fun bs =>
  ⟨swap16_length bs, swap16_swap16 bs, getElem?_swap16_pair bs, getElem?_swap16_last bs⟩

/-! ### What a codec (c) decoder reads (R81, R252, R305) -/

theorem decSlzLoop_word {sg : Bool} {len : Nat} {rest : List Byte} {p want left : Nat} {neg : Bool} {shift : Nat}
    {out : List Word32} {q : Nat} (b0 b1 : Byte)
    (h : decSlzLoop sg len rest (p + 2) want left neg shift = .ok (out, q)) :
    decSlzLoop sg len (b0 :: b1 :: rest) p (want + 1) (left + 1) neg shift =
      .ok (slzElement neg shift (u16le b0 b1) :: out, q) := by
  rw [decSlzLoop, h]

/-- A loop that succeeds reads the bytes `used` and no others: whatever follows them, and whatever the buffer's length,
it gives the same. -/
theorem decSlzLoop_ok {sg : Bool} {len : Nat} {bs : List Byte} {p want left : Nat} {neg : Bool} {shift : Nat}
    {out : List Word32} {q : Nat} (h : decSlzLoop sg len bs p want left neg shift = .ok (out, q)) :
    out.length = want ∧ ∃ used rest, bs = used ++ rest ∧ q = p + used.length ∧
      ∀ len' rest', decSlzLoop sg len' (used ++ rest') p want left neg shift = .ok (out, q) := by
  fun_induction decSlzLoop sg len bs p want left neg shift generalizing out q with
  | case1 bs p left neg shift =>
    cases h
    exact ⟨rfl, [], bs, rfl, rfl, fun _ _ => decSlzLoop_zero ..⟩
  | case2 b0 b1 bs p want neg shift ih =>
    obtain ⟨hlen, used, rest, rfl, rfl, hsame⟩ := ih h
    exact ⟨hlen, b0 :: b1 :: used, rest, rfl, by simp only [List.length_cons]; omega,
      fun len' rest' => (decSlzLoop_header ..).trans (hsame len' rest')⟩
  | case3 b0 b1 bs p want left neg shift out q hrest ih =>
    cases h
    obtain ⟨hlen, used, rest, rfl, rfl, hsame⟩ := ih hrest
    exact ⟨congrArg (· + 1) hlen, b0 :: b1 :: used, rest, rfl, by simp only [List.length_cons]; omega,
      fun len' rest' => decSlzLoop_word b0 b1 (hsame len' rest')⟩
  | case4 => cases h
  | case5 => cases h

/-- A loop that fails names the two bytes of the first read that passes the end. -/
theorem decSlzLoop_error {sg : Bool} {len : Nat} {bs : List Byte} {p want left : Nat} {neg : Bool} {shift : Nat}
    {t : Truncation} (h : decSlzLoop sg len bs p want left neg shift = .error t) :
    t.avail = len ∧ p + bs.length < t.needed ∧ t.needed ≤ p + bs.length + 2 := by
  fun_induction decSlzLoop sg len bs p want left neg shift generalizing t with
  | case1 => cases h
  | case2 b0 b1 bs p want neg shift ih =>
    obtain ⟨havail, hpast, hnear⟩ := ih h
    simp only [List.length_cons]
    omega
  | case3 => cases h
  | case4 b0 b1 bs p want left neg shift t' hrest ih =>
    cases h
    obtain ⟨havail, hpast, hnear⟩ := ih hrest
    simp only [List.length_cons]
    omega
  | case5 bs p want left neg shift noHeader noWord =>
    cases h
    have hshort : bs.length ≤ 1 := length_le_one_of_short fun b0 b1 rest hbs => by
      cases left with
      | zero => exact noHeader b0 b1 rest hbs rfl
      | succ left => exact noWord b0 b1 rest left hbs rfl
    refine ⟨rfl, ?_, ?_⟩ <;> dsimp only <;> omega

/-- Settles O49: the decoder is the loop over the whole buffer from index 0. -/
theorem slzDecoderStaysInTheBuffer : Obligations.SlzDecoderStaysInTheBuffer := by
  intro sg buf n
  constructor
  · intro out p h
    obtain ⟨hlen, used, rest, rfl, hp, hsame⟩ := decSlzLoop_ok h
    obtain rfl : p = used.length := by omega
    refine ⟨by simp, hlen, fun buf' htake => ?_⟩
    rw [← List.take_append_drop used.length buf', htake, List.take_left]
    exact hsame _ _
  · intro t h
    simpa only [Nat.zero_add] using decSlzLoop_error h

/-! ### One unit of a state beside the other units of another (R20) -/

/-- `s` with the registers and outputs of unit `v`, and the parameters, of `r`. -/
def withUnit (v : HwUnit) (r s : State) : State :=
  match v with
  | .sync =>
    { s with
      syncState := r.syncState, window := r.window, seekCount := r.seekCount, garbageCount := r.garbageCount
      hdrBuf := r.hdrBuf, hVersion := r.hVersion, hType := r.hType, hSec := r.hSec, hAppid := r.hAppid
      hGflags := r.hGflags, hSeq := r.hSeq, hDlen := r.hDlen, bodyBuf := r.bodyBuf, partialAtEnd := r.partialAtEnd
      frameOut := r.frameOut, syncDiag := r.syncDiag, cfg := r.cfg }
  | .col =>
    { s with
      acc := r.acc, lastAppid := r.lastAppid, startSeq := r.startSeq, singleFragment := r.singleFragment
      packetOut := r.packetOut, colDiag := r.colDiag, colDone := r.colDone, residualAtEnd := r.residualAtEnd
      cfg := r.cfg }
  | .codec => { s with result := r.result, cfg := r.cfg }

/-- An operation changes its own unit alone. -/
theorem exec_frame {i : Instr} {v : HwUnit} {s t : State} (hi : unitOf i = some v) (h : exec i s = .next t) :
    t = withUnit v t s := by
  obtain ⟨hcfg, -⟩ := exec_cfg_cmdIn h
  cases v with
  | sync =>
    rw [withUnit, hcfg]
    exact syncStep_frame (syncStep_of_exec hi h)
  | col =>
    rw [withUnit, hcfg]
    exact colStep_frame (colStep_of_exec hi h)
  | codec =>
    obtain ⟨r, rfl, -⟩ := exec_codec_stateless hi s t h
    rfl

/-- The other units of a state are those before an operation of unit `u`. -/
theorem withUnit_of_frame {u v : HwUnit} {s t : State} (huv : u ≠ v) (hframe : t = withUnit u t s)
    (hcfg : t.cfg = s.cfg) : withUnit v t s = s := by
  have hkept : withUnit v (withUnit u t s) s = { s with cfg := t.cfg } := by
    cases u <;> cases v
    case sync.sync | col.col | codec.codec => exact absurd rfl huv
    all_goals rfl
  rw [hframe, hkept, hcfg]

theorem withUnit_self (v : HwUnit) (s : State) : withUnit v s s = s := by
  cases v <;> rfl

theorem withUnit_comm {u v : HwUnit} {a c : State} (s : State) (huv : u ≠ v) (hcfg : a.cfg = c.cfg) :
    withUnit u a (withUnit v c s) = withUnit v c (withUnit u a s) := by
  cases u <;> cases v
  case sync.sync | col.col | codec.codec => exact absurd rfl huv
  all_goals simp only [withUnit, hcfg]

/-! ### A unit's operation runs the same beside any other units (R76) -/

/-- An outcome with its next state changed by `f`. -/
def mapNext (f : State → State) : Out → Out
  | .next t => .next (f t)
  | .fault r => .fault r
  | .refused r => .refused r

/-- A check of the operands alone comes before a meaning. -/
theorem mapNext_unless (c : Prop) [Decidable c] (r : Refusal) (f : State → State) {o o' : Out}
    (h : o' = mapNext f o) :
    (if c then .refused r else o') = mapNext f (if c then .refused r else o) := by
  split
  · rfl
  · exact h

theorem skipFiller_withUnit (b : Byte) (s u : State) :
    skipFiller b (withUnit .sync s u) = withUnit .sync (skipFiller b s) u := by
  unfold skipFiller
  rw [apply_ite (withUnit .sync · u)]
  rfl

theorem seekByte_withUnit (b : Byte) (s u : State) :
    seekByte b (withUnit .sync s u) = withUnit .sync (seekByte b s) u := by
  obtain ⟨noMarker, h⟩ | ⟨found, h⟩ := seekByte_cases b s
  · rw [h]
    simp [seekByte, withUnit, noMarker]
  · rw [h]
    simp [seekByte, withUnit, found, markerFound_eq]

theorem headerByte_withUnit (b : Byte) (s u : State) :
    headerByte b (withUnit .sync s u) = withUnit .sync (headerByte b s) u := by
  unfold headerByte
  rw [apply_ite (withUnit .sync · u)]
  rfl

theorem bodyByte_withUnit (b : Byte) (s u : State) :
    bodyByte b (withUnit .sync s u) = withUnit .sync (bodyByte b s) u := by
  unfold bodyByte
  simp only [completeFrame_eq]
  rw [apply_ite (withUnit .sync · u)]
  rfl

theorem endSeek_withUnit (s u : State) : endSeek (withUnit .sync s u) = withUnit .sync (endSeek s) u := by
  simp only [endSeek_eq]
  rfl

theorem collate_withUnit (f : RawFrame) (s u : State) :
    collate f (withUnit .col s u) = withUnit .col (collate f s) u := by
  cases terminal : isTerminal f.gflags with
  | false =>
    simp only [collate_of_not_terminal f _ terminal, openRun_eq]
    rfl
  | true =>
    simp only [collate_of_terminal f _ terminal, openRun_eq]
    rfl

theorem arrayOp_withUnit (n : Nat) (r : Result) (s u : State) :
    arrayOp n r (withUnit .codec s u) = mapNext (withUnit .codec · u) (arrayOp n r s) := by
  cases admitted : admitsCount s.cfg n with
  | true => rw [arrayOp_of_admits r admitted]; exact arrayOp_of_admits r admitted
  | false => rw [arrayOp_of_not_admits r admitted]; exact arrayOp_of_not_admits r admitted

theorem execSyncPush_withUnit (b : Byte) (s u : State) :
    execSyncPush b (withUnit .sync s u) = mapNext (withUnit .sync · u) (execSyncPush b s) := by
  have hstate : (withUnit .sync s u).syncState = s.syncState := rfl
  unfold execSyncPush
  rw [hstate]
  cases s.syncState with
  | done => rfl
  | seekingSync =>
    simp only [mapNext, skipFiller_withUnit, seekByte_withUnit, apply_ite (withUnit .sync · u)]
  | readingHeader => simp only [mapNext, headerByte_withUnit]
  | readingBody => simp only [mapNext, bodyByte_withUnit]

theorem execSyncEnd_withUnit (s u : State) :
    execSyncEnd (withUnit .sync s u) = mapNext (withUnit .sync · u) (execSyncEnd s) := by
  have hstate : (withUnit .sync s u).syncState = s.syncState := rfl
  unfold execSyncEnd
  rw [hstate]
  cases s.syncState with
  | done => rfl
  | seekingSync => rw [endSeek_withUnit]; rfl
  | readingHeader => rfl
  | readingBody => rfl

theorem execColPush_withUnit (f : RawFrame) (s u : State) :
    execColPush f (withUnit .col s u) = mapNext (withUnit .col · u) (execColPush f s) := by
  unfold execColPush
  rw [collate_withUnit]
  simp only [apply_ite (mapNext (withUnit .col · u))]
  rfl

theorem execColEnd_withUnit (s u : State) :
    execColEnd (withUnit .col s u) = mapNext (withUnit .col · u) (execColEnd s) := by
  unfold execColEnd
  rw [apply_ite (mapNext (withUnit .col · u))]
  rfl

/-- An operation of unit `v` reads that unit and the parameters alone: beside any other units it answers the same, and
leaves them as they were. -/
theorem exec_withUnit {i : Instr} {v : HwUnit} (hi : unitOf i = some v) (s u : State) :
    exec i (withUnit v s u) = mapNext (withUnit v · u) (exec i s) := by
  cases i with
  | syncPush b => cases hi; exact execSyncPush_withUnit b s u
  | syncEnd => cases hi; exact execSyncEnd_withUnit s u
  | colPush f => cases hi; exact execColPush_withUnit f s u
  | colEnd => cases hi; exact execColEnd_withUnit s u
  | enc10p6 | dec10p6 | enc4to5 | dec4to5 | crc16 | crc16Step => cases hi; rfl
  | encSlzU | encSlzS | decSlzU | decSlzS | enc10p6Buf | dec10p6Buf => cases hi; exact arrayOp_withUnit _ _ s u
  | enc4to5Buf | dec4to5Buf => cases hi; exact mapNext_unless _ _ _ (arrayOp_withUnit _ _ s u)
  | reset | frameMarker | frameW0 | frameW1 | frameW2 | code10p6 | code4to5W0 | code4to5Wi | slzHdrU | slzHdrS
  | slzWord => cases hi

theorem exec_withUnit_next {i : Instr} {v : HwUnit} {s t : State} (hi : unitOf i = some v) (h : exec i s = .next t)
    (u : State) : exec i (withUnit v s u) = .next (withUnit v t u) := by
  rw [exec_withUnit hi, h, mapNext]

/-- Settles O53: the unit of `j` is the same in `s` and `a`, so `j` runs from `s` (`hjs`); it leaves the unit of `i` as
it was, so `i` runs after it (`hib`); and the two units put into `s` in either order give one state. -/
theorem operationsOfDifferentUnitsCommute : Obligations.OperationsOfDifferentUnitsCommute := by
  intro i j u v s a c hi hj huv hia hjc
  obtain ⟨hacfg, -⟩ := exec_cfg_cmdIn hia
  obtain ⟨hccfg, -⟩ := exec_cfg_cmdIn hjc
  have ha : a = withUnit u a s := exec_frame hi hia
  have hc : c = withUnit v c a := exec_frame hj hjc
  have hjs : exec j s = .next (withUnit v c s) := by
    have h := exec_withUnit_next hj hjc s
    rwa [withUnit_of_frame huv ha hacfg] at h
  have hkept : withUnit u s (withUnit v c s) = withUnit v c s := by
    rw [withUnit_comm s huv (hacfg.symm.trans hccfg.symm), withUnit_self]
  have hib : exec i (withUnit v c s) = .next c := by
    have h := exec_withUnit_next hi hia (withUnit v c s)
    rwa [hkept, withUnit_comm s huv hccfg.symm, ← ha, ← hc] at h
  exact ⟨withUnit v c s, hjs, hib⟩

/-! ### The coupling (R75) -/

theorem coupledOp_of_undelivered {s : State} {f : RawFrame} (hcoupled : s.cfg.coupled = true)
    (notDone : s.colDone = false) (hf : s.frameOut[s.delivered]? = some f) : coupledOp s = some (.colPush f) := by
  simp [coupledOp, hcoupled, notDone, hf]

theorem coupledOp_of_syncDone {s : State} (hcoupled : s.cfg.coupled = true) (notDone : s.colDone = false)
    (delivered : s.frameOut.length ≤ s.delivered) (done : s.syncState = .done) : coupledOp s = some .colEnd := by
  simp [coupledOp, hcoupled, notDone, delivered, done]

theorem step_of_coupledOp {s : State} {i : Instr} (h : coupledOp s = some i) :
    step s = exec i (noteDelivery i s) := by
  simp [step, fetch, h]

theorem run_succ_of_next {s t : State} (k : Nat) (h : step s = .next t) :
    Host.Core.run core (k + 1) s = Host.Core.run core k t := by
  have hcore : core.step s = .next t := h
  simp only [Host.Core.run, hcore]

theorem run_succ_of_refused {s : State} {r : Refusal} (k : Nat) (h : step s = .refused r) :
    Host.Core.run core (k + 1) s = (.refused r : Out) := by
  have hcore : core.step s = .refused r := h
  simp only [Host.Core.run, hcore]
  rfl

theorem execAll_cons_of_next {i : Instr} {s t : State} (is : List Instr) (h : exec i s = .next t) :
    execAll (i :: is) s = execAll is t := by
  simp only [execAll, h]

theorem execAll_cons_of_refused {i : Instr} {s : State} {r : Refusal} (is : List Instr)
    (h : exec i s = .refused r) : execAll (i :: is) s = .refused r := by
  simp only [execAll, h]

/-- `s` with `d` frames of `frame_out` delivered. -/
def withDelivered (d : Nat) (s : State) : State := { s with delivered := d }

theorem withDelivered_withDelivered (d e : Nat) (s : State) :
    withDelivered d (withDelivered e s) = withDelivered d s := rfl

/-- `COL` does not read the delivery counter. -/
theorem exec_colPush_withDelivered (f : RawFrame) (d : Nat) (s : State) :
    exec (.colPush f) (withDelivered d s) = mapNext (withDelivered d) (exec (.colPush f) s) := by
  have h := exec_withUnit (i := .colPush f) (v := .col) rfl s (withDelivered d s)
  refine h.trans ?_
  cases hs : exec (.colPush f) s with
  | next t =>
    refine congrArg Host.Outcome.next ?_
    rw [exec_frame (v := .col) rfl hs]
    rfl
  | fault r => cases r
  | refused r => rfl

theorem colPush_keeps {f : RawFrame} {s t : State} (h : exec (.colPush f) s = .next t) :
    t.cfg = s.cfg ∧ t.frameOut = s.frameOut ∧ t.delivered = s.delivered ∧ t.colDone = false := by
  have hstep : ColStep s (.colPush f) t := colStep_of_exec rfl h
  cases hstep with
  | fragment f notDone | packet f notDone => exact ⟨rfl, rfl, rfl, notDone⟩

/-- The steps that deliver the frames `fs`, one a step, are their pushes in order, but for the delivery counter, which
counts them. -/
theorem run_delivers (fs : List RawFrame) {s : State} (hcoupled : s.cfg.coupled = true) (notDone : s.colDone = false)
    (hfs : s.frameOut.drop s.delivered = fs) :
    Host.Core.run core fs.length s = execAll (fs.map .colPush) (withDelivered (s.delivered + fs.length) s) := by
  induction fs generalizing s with
  | nil => rfl
  | cons f fs ih =>
    have hf : s.frameOut[s.delivered]? = some f := by rw [← List.head?_drop, hfs]; rfl
    have hrest : s.frameOut.drop (s.delivered + 1) = fs := by rw [← List.tail_drop, hfs]; rfl
    have hstep : step s = exec (.colPush f) (withDelivered (s.delivered + 1) s) :=
      step_of_coupledOp (coupledOp_of_undelivered hcoupled notDone hf)
    have hpush := exec_colPush_withDelivered f (s.delivered + 1 + fs.length) (withDelivered (s.delivered + 1) s)
    rw [withDelivered_withDelivered] at hpush
    have hlen : s.delivered + (f :: fs).length = s.delivered + 1 + fs.length := by
      rw [List.length_cons]
      omega
    rw [hlen, List.map_cons, List.length_cons]
    cases hexec : exec (.colPush f) (withDelivered (s.delivered + 1) s) with
    | next t =>
      rw [hexec] at hstep hpush
      obtain ⟨hcfg, hout, hcount, hopen⟩ := colPush_keeps hexec
      have hih := ih (s := t) (hcfg ▸ hcoupled) hopen (by rw [hout, hcount]; exact hrest)
      rw [run_succ_of_next _ hstep, execAll_cons_of_next _ hpush, hih, hcount]
      rfl
    | fault r => cases r
    | refused r =>
      rw [hexec] at hstep hpush
      rw [run_succ_of_refused _ hstep, execAll_cons_of_refused _ hpush]

/-- After `SYNC.END` and the last frame the coupling ends `COL`. -/
theorem step_ends_col {s : State} (hcoupled : s.cfg.coupled = true) (notDone : s.colDone = false)
    (delivered : s.frameOut.length ≤ s.delivered) (done : s.syncState = .done) :
    step s = .next { s with residualAtEnd := residualAfterEnd s.acc s.residualAtEnd, acc := [], colDone := true } := by
  rw [step_of_coupledOp (coupledOp_of_syncDone hcoupled notDone delivered done)]
  simp [exec, execColEnd, noteDelivery, notDone]

theorem residualAfterEnd_eq (acc : List Byte) (residual : Bool) :
    residualAfterEnd acc residual = (residual || decide (acc ≠ [])) := by
  cases acc <;> simp [residualAfterEnd]

/-- Settles O8, by induction on the frames not yet delivered (`run_delivers`) and the equation of `COL.END`. -/
theorem couplingDeliversFramesInOrder : Obligations.CouplingDeliversFramesInOrder := by
  intro s hcoupled notDone
  constructor
  · have hrun := run_delivers _ hcoupled notDone rfl
    have hcount : s.delivered + (s.frameOut.length - s.delivered) = max s.delivered s.frameOut.length := by omega
    rwa [List.length_drop, hcount] at hrun
  · intro delivered done
    rw [step_ends_col hcoupled notDone delivered done, residualAfterEnd_eq]

end Sys2Proof.Proofs.Memory
end

section
/-! PROOFS of family 30_encoding: the words of the data formats and their fields, the operand readers and blocks of
`CMD8`, the decoder against the encoder, and the step on presented bytes. -/

namespace Sys2Proof.Proofs.Encoding

open Sys2Proof Sys2Proof.Machine
open Sys2Proof.Proofs.UnitState (packW0_fields packW1_fields headerBytes_headerFields)

/-! ### Words of several fields -/

theorem setWidth_append_eq_or {m n : Nat} (hi : BitVec m) (lo : BitVec n) (w : Nat) :
    (hi ++ lo).setWidth w = (hi.setWidth w <<< n) ||| lo.setWidth w := by
  apply BitVec.eq_of_getLsbD_eq
  intro i hw
  by_cases low : i < n
  · simp [BitVec.getLsbD_append, hw, low]
  · have hlo : lo.getLsbD i = false := BitVec.getLsbD_of_ge lo i (by omega)
    simp [BitVec.getLsbD_append, hw, low, hlo]

theorem extractLsb'_append_append {a b c : Nat} (x : BitVec a) (y : BitVec b) (z : BitVec c) :
    (x ++ y ++ z).extractLsb' (b + c) a = x ∧ (x ++ y ++ z).extractLsb' c b = y ∧
      (x ++ y ++ z).extractLsb' 0 c = z := by
  refine ⟨?_, ?_, BitVec.extractLsb'_append_eq_right⟩
  · rw [BitVec.extractLsb'_append_eq_of_le (by omega), Nat.add_sub_cancel, BitVec.extractLsb'_append_eq_left]
  · rw [BitVec.extractLsb'_append_eq_of_le le_rfl, Nat.sub_self, BitVec.extractLsb'_append_eq_right]

theorem append_append_extractLsb' {a b c : Nat} (w : BitVec (a + b + c)) :
    w.extractLsb' (b + c) a ++ w.extractLsb' c b ++ w.extractLsb' 0 c = w := by
  rw [BitVec.extractLsb'_append_extractLsb'_eq_extractLsb' (by omega),
    BitVec.extractLsb'_append_extractLsb'_eq_extractLsb' (by omega), BitVec.extractLsb'_eq_self]

theorem extractLsb'_append_four {n : Nat} (x3 x2 x1 x0 : BitVec n) :
    (x3 ++ x2 ++ x1 ++ x0).extractLsb' 0 n = x0 ∧ (x3 ++ x2 ++ x1 ++ x0).extractLsb' n n = x1 ∧
      (x3 ++ x2 ++ x1 ++ x0).extractLsb' (n + n) n = x2 ∧ (x3 ++ x2 ++ x1 ++ x0).extractLsb' (n + n + n) n = x3 := by
  have upper (k : Nat) : (x3 ++ x2 ++ x1 ++ x0).extractLsb' (k + n) n = (x3 ++ x2 ++ x1).extractLsb' k n := by
    rw [BitVec.extractLsb'_append_eq_of_le (by omega), Nat.add_sub_cancel]
  obtain ⟨h3, h2, h1⟩ := extractLsb'_append_append x3 x2 x1
  refine ⟨BitVec.extractLsb'_append_eq_right, ?_, (upper n).trans h2, (upper (n + n)).trans h3⟩
  have h := upper 0
  rwa [Nat.zero_add, h1] at h

theorem or_or_reverse {n : Nat} (a b c : BitVec n) : a ||| b ||| c = c ||| b ||| a := by ac_rfl

theorem or_or_or_reverse {n : Nat} (a b c d : BitVec n) : a ||| b ||| c ||| d = d ||| c ||| b ||| a := by ac_rfl

theorem u32le_eq_append (b0 b1 b2 b3 : Byte) : u32le b0 b1 b2 b3 = b3 ++ b2 ++ b1 ++ b0 := by
  rw [u32le, or_or_or_reverse, ← BitVec.setWidth_eq (b3 ++ b2 ++ b1 ++ b0)]
  simp only [setWidth_append_eq_or, BitVec.shiftLeft_or_distrib, ← BitVec.shiftLeft_add]

@[simp] theorem le32_u32le (b0 b1 b2 b3 : Byte) : le32 (u32le b0 b1 b2 b3) = [b0, b1, b2, b3] := by
  simp only [le32, List.cons.injEq, and_true]
  rw [u32le_eq_append]
  exact extractLsb'_append_four b3 b2 b1 b0

/-! ### The packed words as the patterns of R100 to R105 -/

theorem pack10p6_eq_append (mant : BitVec 10) (sign : BitVec 1) (lz : BitVec 5) :
    pack10p6 mant sign lz = mant ++ sign ++ lz := by
  rw [← BitVec.setWidth_eq (mant ++ sign ++ lz), setWidth_append_eq_or, setWidth_append_eq_or,
    BitVec.shiftLeft_or_distrib, ← BitVec.shiftLeft_add, pack10p6]

theorem pack4to5_eq_append (sign inplace : BitVec 1) (mant : BitVec 14) :
    pack4to5 sign inplace mant = sign ++ inplace ++ mant := by
  rw [pack4to5, or_or_reverse, ← BitVec.setWidth_eq (sign ++ inplace ++ mant)]
  simp only [setWidth_append_eq_or, BitVec.shiftLeft_or_distrib, ← BitVec.shiftLeft_add]

theorem packNibbles_eq_append (n0 n1 n2 n3 : BitVec 4) :
    packNibbles n0 n1 n2 n3 = n3 ++ n2 ++ n1 ++ n0 := by
  rw [packNibbles, or_or_or_reverse, ← BitVec.setWidth_eq (n3 ++ n2 ++ n1 ++ n0)]
  simp only [setWidth_append_eq_or, BitVec.shiftLeft_or_distrib, ← BitVec.shiftLeft_add]

theorem packRunHdr_eq_append (shiftByte len : Byte) : packRunHdr shiftByte len = shiftByte ++ len := by
  rw [← BitVec.setWidth_eq (shiftByte ++ len), setWidth_append_eq_or, packRunHdr, u16be]

theorem shiftByte_eq_append (sign : BitVec 1) (shift : BitVec 7) : shiftByte sign shift = sign ++ shift := by
  rw [← BitVec.setWidth_eq (sign ++ shift), setWidth_append_eq_or, shiftByte, BitVec.or_comm]

/-! ### The fields of a packed word, and the packed fields of a word -/

@[simp] theorem extractLsb'_pack10p6 (mant : BitVec 10) (sign : BitVec 1) (lz : BitVec 5) :
    (pack10p6 mant sign lz).extractLsb' 6 10 = mant ∧ (pack10p6 mant sign lz).extractLsb' 5 1 = sign ∧
      (pack10p6 mant sign lz).extractLsb' 0 5 = lz := by
  rw [pack10p6_eq_append]
  exact extractLsb'_append_append mant sign lz

@[simp] theorem pack10p6_extractLsb' (w : Word16) :
    pack10p6 (w.extractLsb' 6 10) (w.extractLsb' 5 1) (w.extractLsb' 0 5) = w := by
  rw [pack10p6_eq_append]
  exact append_append_extractLsb' (a := 10) (b := 1) (c := 5) w

@[simp] theorem nibble_packNibbles (n0 n1 n2 n3 : BitVec 4) :
    nibble (packNibbles n0 n1 n2 n3) 0 = n0 ∧ nibble (packNibbles n0 n1 n2 n3) 1 = n1 ∧
    nibble (packNibbles n0 n1 n2 n3) 2 = n2 ∧ nibble (packNibbles n0 n1 n2 n3) 3 = n3 := by
  rw [packNibbles_eq_append]
  exact extractLsb'_append_four n3 n2 n1 n0

@[simp] theorem packNibbles_nibble (w : Word16) :
    packNibbles (nibble w 0) (nibble w 1) (nibble w 2) (nibble w 3) = w := by
  rw [packNibbles_eq_append]
  have upper : nibble w 3 ++ nibble w 2 ++ nibble w 1 = w.extractLsb' 4 12 := by
    unfold nibble
    rw [BitVec.extractLsb'_append_extractLsb'_eq_extractLsb' (by omega),
      BitVec.extractLsb'_append_extractLsb'_eq_extractLsb' (by omega)]
  rw [upper]
  exact (BitVec.extractLsb'_append_extractLsb'_eq_extractLsb' rfl).trans BitVec.extractLsb'_eq_self

@[simp] theorem extractLsb'_pack4to5 (sign inplace : BitVec 1) (mant : BitVec 14) :
    (pack4to5 sign inplace mant).extractLsb' 15 1 = sign ∧ (pack4to5 sign inplace mant).extractLsb' 14 1 = inplace ∧
      (pack4to5 sign inplace mant).extractLsb' 0 14 = mant := by
  rw [pack4to5_eq_append]
  exact extractLsb'_append_append sign inplace mant

@[simp] theorem pack4to5_extractLsb' (w : Word16) :
    pack4to5 (w.extractLsb' 15 1) (w.extractLsb' 14 1) (w.extractLsb' 0 14) = w := by
  rw [pack4to5_eq_append]
  exact append_append_extractLsb' (a := 1) (b := 1) (c := 14) w

@[simp] theorem extractLsb'_packRunHdr (shift len : Byte) :
    (packRunHdr shift len).extractLsb' 8 8 = shift ∧ (packRunHdr shift len).extractLsb' 0 8 = len := by
  rw [packRunHdr_eq_append]
  exact ⟨BitVec.extractLsb'_append_eq_left, BitVec.extractLsb'_append_eq_right⟩

@[simp] theorem packRunHdr_extractLsb' (w : Word16) : packRunHdr (w.extractLsb' 8 8) (w.extractLsb' 0 8) = w :=
  u16be_of_be16 w

@[simp] theorem extractLsb'_packRunHdr_shiftByte (sign : BitVec 1) (shift : BitVec 7) (len : Byte) :
    (packRunHdr (shiftByte sign shift) len).extractLsb' 15 1 = sign ∧
      (packRunHdr (shiftByte sign shift) len).extractLsb' 8 7 = shift := by
  rw [packRunHdr_eq_append, shiftByte_eq_append]
  obtain ⟨hsign, hshift, -⟩ := extractLsb'_append_append sign shift len
  exact ⟨hsign, hshift⟩

@[simp] theorem packRunHdr_shiftByte_extractLsb' (w : Word16) :
    packRunHdr (shiftByte (w.extractLsb' 15 1) (w.extractLsb' 8 7)) (w.extractLsb' 0 8) = w := by
  rw [packRunHdr_eq_append, shiftByte_eq_append]
  exact append_append_extractLsb' (a := 1) (b := 7) (c := 8) w

/-! ### The data formats (R91 to R94, R100 to R105) -/

theorem decodeFormat_of_encodeFormat {i : Instr} {fmt : DataFormat} {w : Word16} (h : encodeFormat i = some (fmt, w)) :
    decodeFormat fmt w = some i := by
  cases i with
  | frameMarker => cases h; rfl
  | frameW0 | frameW1 | frameW2 | code10p6 | code4to5W0 | code4to5Wi | slzHdrU | slzHdrS | slzWord =>
    cases h
    simp [decodeFormat]
  | _ => cases h

theorem encodeFormat_of_decodeFormat {fmt : DataFormat} {w : Word16} {i : Instr} (h : decodeFormat fmt w = some i) :
    encodeFormat i = some (fmt, w) := by
  cases fmt with
  | frameMarker =>
    obtain ⟨rfl, rfl⟩ : w = Config.syncMarker ∧ .frameMarker = i := by simpa [decodeFormat] using h
    rfl
  | frameW0 | frameW1 | frameW2 | code10p6 | code4to5W0 | code4to5Wi | slzHdrU | slzHdrS | slzWord =>
    cases h
    simp [encodeFormat, packW0_fields, packW1_fields]

/-- Settles O3: the fields of each layout are read back from its packed word, and the packed fields of a word are the
word. -/
theorem dataFormatWordsRoundTrip : Obligations.DataFormatWordsRoundTrip :=
  ⟨fun _ _ _ => decodeFormat_of_encodeFormat, fun _ _ _ => encodeFormat_of_decodeFormat⟩

/-! ### Operand readers (R122) -/

/-- A reader of operands and their block of bytes determine each other: the reader accepts exactly the bytes that
begin with the block of an operand that `fits`, and leaves the rest. -/
def Reads {α : Type} (take : List Byte → Option (α × List Byte)) (fits : α → Bool) (block : α → List Byte) : Prop :=
  ∀ bs a rest, take bs = some (a, rest) ↔ fits a = true ∧ bs = block a ++ rest

theorem Reads.inv {α : Type} {take : List Byte → Option (α × List Byte)} {fits : α → Bool} {block : α → List Byte}
    (hr : Reads take fits block) {bs : List Byte} {a : α} {rest : List Byte} (h : take bs = some (a, rest)) :
    fits a = true ∧ bs = block a ++ rest :=
  (hr bs a rest).1 h

theorem Reads.take_block {α : Type} {take : List Byte → Option (α × List Byte)} {fits : α → Bool}
    {block : α → List Byte} (hr : Reads take fits block) {a : α} (rest : List Byte) (ha : fits a = true) :
    take (block a ++ rest) = some (a, rest) :=
  (hr _ a rest).2 ⟨ha, rfl⟩

theorem takeCount_reads : Reads takeCount fitsCount count32 := by
  intro bs n rest
  constructor
  · intro h
    unfold takeCount at h
    split at h
    · cases h
      exact ⟨decide_eq_true (BitVec.isLt _), by simp [count32]⟩
    · cases h
  · rintro ⟨hn, rfl⟩
    have hlt : n < 4294967296 := of_decide_eq_true hn
    simp [count32, le32, takeCount, hlt]

theorem takeBytes_eq_some_iff {n : Nat} {bs buf rest : List Byte} :
    takeBytes n bs = some (buf, rest) ↔ buf.length = n ∧ bs = buf ++ rest := by
  unfold takeBytes
  constructor
  · intro h
    split at h
    · cases h
      exact ⟨List.length_take_of_le ‹_›, (List.take_append_drop n bs).symm⟩
    · cases h
  · rintro ⟨rfl, rfl⟩
    simp

theorem takeWords_eq_some_iff {n : Nat} {bs : List Byte} {ws : List Word32} {rest : List Byte} :
    takeWords n bs = some (ws, rest) ↔ ws.length = n ∧ bs = ws.flatMap le32 ++ rest := by
  constructor
  · intro h
    fun_induction takeWords n bs generalizing ws with
    | case1 => cases h; exact ⟨rfl, rfl⟩
    | case2 n b0 b1 b2 b3 bs ws' rest' htake ih =>
      cases h
      obtain ⟨rfl, rfl⟩ := ih htake
      simp
    | case3 | case4 => cases h
  · rintro ⟨rfl, rfl⟩
    induction ws with
    | nil => simp [takeWords]
    | cons w ws ih => simp [takeWords, le32, ih]

/-- An operand that begins with a count, and whose body is read by that count. -/
theorem reads_of_count {α : Type} {take : List Byte → Option (α × List Byte)}
    {takeBody : Nat → List Byte → Option (α × List Byte)} {size : α → Nat} {body : α → List Byte}
    (htake : ∀ bs, take bs = (takeCount bs).bind fun p => takeBody p.1 p.2)
    (hbody : ∀ {n bs a rest}, takeBody n bs = some (a, rest) ↔ size a = n ∧ bs = body a ++ rest) :
    Reads take (fun a => fitsCount (size a)) (fun a => count32 (size a) ++ body a) := by
  intro bs a rest
  rw [htake]
  constructor
  · intro h
    obtain ⟨⟨n, bs'⟩, hcount, hrest⟩ := Option.bind_eq_some_iff.1 h
    obtain ⟨hn, rfl⟩ := takeCount_reads.inv hcount
    obtain ⟨rfl, rfl⟩ := hbody.1 hrest
    exact ⟨hn, (List.append_assoc _ _ _).symm⟩
  · rintro ⟨ha, rfl⟩
    rw [List.append_assoc, takeCount_reads.take_block _ ha]
    exact hbody.2 ⟨rfl, rfl⟩

theorem takeArray_reads : Reads takeArray (fun a => fitsCount a.length) arrayBytes :=
  reads_of_count (fun bs => by rw [takeArray]; cases takeCount bs <;> rfl) takeWords_eq_some_iff

theorem takeBuffer_reads : Reads takeBuffer (fun buf => fitsCount buf.length) bufferBytes :=
  reads_of_count (fun bs => by rw [takeBuffer]; cases takeCount bs <;> rfl) takeBytes_eq_some_iff

theorem takeDecoderOperands_reads :
    Reads takeDecoderOperands (fun p => fitsCount p.1.length && fitsCount p.2)
      (fun p => count32 p.2 ++ bufferBytes p.1) := by
  rintro bs ⟨buf, n⟩ rest
  unfold takeDecoderOperands
  constructor
  · intro h
    split at h
    · next n' bs' hcount =>
      split at h
      · next buf' rest' hbuf =>
        cases h
        obtain ⟨hn, rfl⟩ := takeCount_reads.inv hcount
        obtain ⟨hlen, rfl⟩ := takeBuffer_reads.inv hbuf
        exact ⟨Bool.and_eq_true_iff.2 ⟨hlen, hn⟩, (List.append_assoc _ _ _).symm⟩
      · cases h
    · cases h
  · rintro ⟨hfits, rfl⟩
    obtain ⟨hlen, hn⟩ := Bool.and_eq_true_iff.1 hfits
    simp [takeCount_reads.take_block _ hn, takeBuffer_reads.take_block _ hlen]

/-! ### The operand of `COL.PUSH` (R122) -/

/-- The operand block of `COL.PUSH f` with `v` for its last byte, the one that holds `crc_valid`. -/
def frameBlock (f : RawFrame) (v : Byte) : List Byte := headerBytes f ++ f.payload ++ be16 f.crcRx ++ [v]

theorem frameBytes_eq_frameBlock (f : RawFrame) : frameBytes f = frameBlock f (if f.crcValid then 1#8 else 0#8) := rfl

theorem decodeColPush_frameBlock {f : RawFrame} (v : Byte) (rest : List Byte) (hf : f.sized = true) :
    decodeColPush (frameBlock f v ++ rest) =
      if v = 0#8 then .ok (.colPush { f with crcValid := false }, rest)
      else if v = 1#8 then .ok (.colPush { f with crcValid := true }, rest)
      else .error (.badCrcValid v) := by
  have hlen : f.payload.length = f.dlen.toNat + 1 := eq_of_beq hf
  have hpayload (tail : List Byte) : takeBytes (f.dlen.toNat + 1) (f.payload ++ tail) = some (f.payload, tail) :=
    takeBytes_eq_some_iff.2 ⟨hlen, rfl⟩
  simp [frameBlock, headerBytes, be16, decodeColPush, hpayload, headerFields]

/-! ### The command byte (R120, R123) -/

theorem opcodeOf_code (op : Opcode) : opcodeOf op.code = some op := by
  cases op <;> rfl

theorem opcodeOf_eq_some_iff {b : Byte} {op : Opcode} : opcodeOf b = some op ↔ b = op.code := by
  constructor
  · intro h
    exact (eq_of_beq (List.find?_some h :)).symm
  · rintro rfl
    exact opcodeOf_code op

theorem decode_code_cons (op : Opcode) (bs : List Byte) : decode (op.code :: bs) = decodeOperands op bs := by
  simp only [decode, opcodeOf_code]

theorem decode_of_reserved {b : Byte} (bs : List Byte) (h : opcodeOf b = none) :
    decode (b :: bs) = .error (.reserved b) := by
  simp only [decode, h]

/-! ### What an operand block is read as (R122) -/

/-- What the decoder can answer to the bytes after the command byte of `op`. -/
inductive OperandRead : Opcode → List Byte → Except DecodeError (Instr × List Byte) → Prop
  /-- the bytes begin with the operand block of a well-formed instruction -/
  | command {op : Opcode} {bs : List Byte} {i : Instr} {rest : List Byte} (wellFormed : i.wellFormed = true)
      (bytes : op.code :: bs = encode i ++ rest) : OperandRead op bs (.ok (i, rest))
  /-- the operand block is not whole (D40) -/
  | incomplete {op : Opcode} {bs : List Byte} : OperandRead op bs (.error (.incomplete op))
  /-- a whole operand of `COL.PUSH` whose last byte is no `crc_valid` (U4) -/
  | badCrcValid {f : RawFrame} {v : Byte} {rest : List Byte} (sized : f.sized = true) (zero : v ≠ 0#8) (one : v ≠ 1#8) :
      OperandRead .colPush (frameBlock f v ++ rest) (.error (.badCrcValid v))

theorem Reads.operandRead {α : Type} {take : List Byte → Option (α × List Byte)} {fits : α → Bool}
    {block : α → List Byte} (hr : Reads take fits block) (op : Opcode) (f : α → Instr) (bs : List Byte)
    (hwf : ∀ a, (f a).wellFormed = fits a) (henc : ∀ a, encode (f a) = op.code :: block a) :
    OperandRead op bs (decodeWith op f (take bs)) := by
  cases htake : take bs with
  | none => exact .incomplete
  | some p =>
    obtain ⟨hfits, hbytes⟩ := hr.inv htake
    exact .command ((hwf p.1).trans hfits) (by rw [henc, hbytes, List.cons_append])

theorem decodeColPush_incomplete_or_frameBlock (bs : List Byte) :
    decodeColPush bs = .error (.incomplete .colPush) ∨
      ∃ f v rest, f.sized = true ∧ bs = frameBlock f v ++ rest := by
  unfold decodeColPush
  split
  · next b0 b1 b2 b3 b4 b5 tail =>
    split
    · next payload c0 c1 v rest htake =>
      obtain ⟨hlen, rfl⟩ := takeBytes_eq_some_iff.1 htake
      refine .inr ⟨{ headerFields b0 b1 b2 b3 b4 b5 with payload := payload, crcRx := u16be c0 c1 }, v, rest,
        beq_iff_eq.2 hlen, ?_⟩
      have hheader := headerBytes_headerFields b0 b1 b2 b3 b4 b5
      simp only [headerBytes] at hheader
      simp [frameBlock, headerBytes, hheader]
    · exact .inl rfl
  · exact .inl rfl

theorem decodeColPush_read (bs : List Byte) : OperandRead .colPush bs (decodeColPush bs) := by
  obtain h | ⟨f, v, rest, hf, rfl⟩ := decodeColPush_incomplete_or_frameBlock bs
  · rw [h]
    exact .incomplete
  · rw [decodeColPush_frameBlock v rest hf]
    split
    · next zero =>
      subst zero
      exact .command hf rfl
    · next zero =>
      split
      · next one =>
        subst one
        exact .command hf rfl
      · next one => exact .badCrcValid hf zero one

/-- The cases are the equations of `decodeOperands`: a whole block of fixed length, a block cut short, and a block with a
reader of its own. -/
theorem decodeOperands_read (op : Opcode) (bs : List Byte) : OperandRead op bs (decodeOperands op bs) := by
  fun_cases decodeOperands op bs with
  | case1 | case3 | case5 | case6 | case8 | case12 | case23 | case25 => exact .command rfl (by simp [encode])
  | case2 | case7 | case9 | case11 | case13 | case24 => exact .incomplete
  | case4 => exact decodeColPush_read bs
  | case10 _ v0 v1 v2 v3 rest htake =>
    obtain ⟨-, rfl⟩ := takeWords_eq_some_iff.1 htake
    exact .command rfl (by simp [encode])
  | case14 | case15 | case18 | case20 => exact takeArray_reads.operandRead _ _ bs (fun _ => rfl) (fun _ => rfl)
  | case16 | case17 | case19 | case21 =>
    exact takeDecoderOperands_reads.operandRead _ _ bs (fun _ => rfl) (fun _ => rfl)
  | case22 => exact takeBuffer_reads.operandRead _ _ bs (fun _ => rfl) (fun _ => rfl)

/-! ### Decoding what was encoded, and encoding what was decoded -/

theorem Reads.decodeWith_block {α : Type} {take : List Byte → Option (α × List Byte)} {fits : α → Bool}
    {block : α → List Byte} (hr : Reads take fits block) (op : Opcode) (f : α → Instr) {a : α} (ha : fits a = true)
    (rest : List Byte) : decodeWith op f (take (block a ++ rest)) = .ok (f a, rest) := by
  rw [hr.take_block rest ha, decodeWith]

/-- The bytes of a well-formed instruction are the code of an operation and a block that this operation's operands are
read back from. -/
theorem encode_eq_code_cons {i : Instr} (hwf : i.wellFormed = true) :
    ∃ op block, encode i = op.code :: block ∧ ∀ rest, decodeOperands op (block ++ rest) = .ok (i, rest) := by
  cases i with
  | syncPush | syncEnd | colEnd | reset => exact ⟨_, _, rfl, fun _ => rfl⟩
  | colPush f =>
    refine ⟨.colPush, _, rfl, fun rest => ?_⟩
    rw [decodeOperands, frameBytes_eq_frameBlock, decodeColPush_frameBlock _ _ hwf]
    cases f with | mk version ptype secHdr appid gflags seq dlen payload crcRx crcValid => cases crcValid <;> rfl
  | enc10p6 | dec10p6 | dec4to5 | crc16Step =>
    exact ⟨_, _, rfl, fun rest => by simp [le16, le32, decodeOperands]⟩
  | enc4to5 v0 v1 v2 v3 =>
    refine ⟨.enc4to5, _, rfl, fun rest => ?_⟩
    have hwords : takeWords 4 (le32 v0 ++ le32 v1 ++ le32 v2 ++ le32 v3 ++ rest) = some ([v0, v1, v2, v3], rest) :=
      takeWords_eq_some_iff.2 ⟨rfl, by simp⟩
    simp only [decodeOperands, hwords]
  | encSlzU | encSlzS | enc10p6Buf | enc4to5Buf => exact ⟨_, _, rfl, takeArray_reads.decodeWith_block _ _ hwf⟩
  | decSlzU buf n | decSlzS buf n | dec10p6Buf buf n | dec4to5Buf buf n =>
    exact ⟨_, _, rfl, takeDecoderOperands_reads.decodeWith_block _ _ (a := (buf, n)) hwf⟩
  | crc16 => exact ⟨_, _, rfl, takeBuffer_reads.decodeWith_block _ _ hwf⟩
  | frameMarker | frameW0 | frameW1 | frameW2 | code10p6 | code4to5W0 | code4to5Wi | slzHdrU | slzHdrS | slzWord =>
    cases hwf

/-- Settles O1: the command byte selects the operation (`opcodeOf_code`), whose operands are read back from their
block (`encode_eq_code_cons`). -/
theorem decodeOfEncodeIsTheInstruction : Obligations.DecodeOfEncodeIsTheInstruction := by
  intro i rest hwf
  obtain ⟨op, block, hencode, hblock⟩ := encode_eq_code_cons hwf
  rw [hencode, List.cons_append, decode_code_cons, hblock]

theorem decode_encode {i : Instr} (hwf : i.wellFormed = true) : decode (encode i) = .ok (i, []) := by
  have h := decodeOfEncodeIsTheInstruction i [] hwf
  rwa [List.append_nil] at h

/-- What the decoder can answer. -/
theorem decode_cases (bs : List Byte) :
    (bs = [] ∧ decode bs = .error .noCommand) ∨
    (∃ b tail, bs = b :: tail ∧ opcodeOf b = none ∧ decode bs = .error (.reserved b)) ∨
    (∃ op tail, bs = op.code :: tail ∧ OperandRead op tail (decode bs)) := by
  cases bs with
  | nil => exact .inl ⟨rfl, rfl⟩
  | cons b tail =>
    cases hop : opcodeOf b with
    | none => exact .inr (.inl ⟨b, tail, rfl, hop, decode_of_reserved tail hop⟩)
    | some op =>
      obtain rfl := opcodeOf_eq_some_iff.1 hop
      exact .inr (.inr ⟨op, tail, rfl, decode_code_cons op tail ▸ decodeOperands_read op tail⟩)

/-- Settles O2: of the answers `decode_cases` allows, an instruction is the one that `OperandRead.command` ties to
the bytes. -/
theorem decodedBytesAreTheEncoding : Obligations.DecodedBytesAreTheEncoding := by
  intro bs rest i h
  obtain ⟨-, hno⟩ | ⟨b, tail, -, -, hreserved⟩ | ⟨op, tail, rfl, hread⟩ := decode_cases bs
  · rw [hno] at h
    cases h
  · rw [hreserved] at h
    cases h
  · rw [h] at hread
    cases hread with
    | command hwf hbytes => exact ⟨hwf, hbytes⟩

/-! ### Commands cut short (D40) -/

theorem decode_append_of_ok {bs rest : List Byte} {i : Instr} (h : decode bs = .ok (i, rest)) (tail : List Byte) :
    decode (bs ++ tail) = .ok (i, rest ++ tail) := by
  obtain ⟨hwf, rfl⟩ := decodedBytesAreTheEncoding _ _ _ h
  rw [List.append_assoc]
  exact decodeOfEncodeIsTheInstruction i _ hwf

/-- A command cut short is no instruction and has no bad `crc_valid` byte, for the same answer would then be given to
the whole command. -/
theorem decode_of_cut {i : Instr} {cut missing : List Byte} (hwf : i.wellFormed = true)
    (hcut : cut ≠ []) (hmissing : missing ≠ []) (hencode : encode i = cut ++ missing) :
    ∃ op, decode cut = .error (.incomplete op) := by
  have hwhole : decode (cut ++ missing) = .ok (i, []) := hencode ▸ decode_encode hwf
  obtain ⟨rfl, -⟩ | ⟨b, tail, rfl, hb, -⟩ | ⟨op, tail, rfl, hread⟩ := decode_cases cut
  · exact absurd rfl hcut
  · rw [List.cons_append, decode_of_reserved _ hb] at hwhole
    cases hwhole
  · cases hanswer : decode (op.code :: tail) with
    | ok p =>
      have hanswers : Except.ok (i, []) = .ok (p.1, p.2 ++ missing) :=
        hwhole.symm.trans (decode_append_of_ok hanswer missing)
      injection hanswers with hpair
      injection hpair with _ hrest
      exact absurd (List.append_eq_nil_iff.1 hrest.symm).2 hmissing
    | error e =>
      rw [hanswer] at hread
      cases hread with
      | incomplete => exact ⟨op, rfl⟩
      | badCrcValid sized zero one =>
        rw [List.cons_append, List.append_assoc, decode_code_cons, decodeOperands,
          decodeColPush_frameBlock _ _ sized, if_neg zero, if_neg one] at hwhole
        cases hwhole

/-! ### The step on presented bytes (R79, R121) -/

theorem step_of_decode_ok {s : State} {i : Instr} {rest : List Byte} (idle : coupledOp s = none)
    (h : decode s.cmdIn = .ok (i, rest)) : step s = exec i { s with cmdIn := rest } := by
  simp only [step, fetch, idle, fetchCommand, h]

theorem step_of_decode_error {s : State} {e : DecodeError} {r : Refusal} (idle : coupledOp s = none)
    (h : decode s.cmdIn = .error e) (hr : refusalOf e = some r) : step s = .refused r := by
  simp only [step, fetch, idle, fetchCommand, h, hr]

theorem step_of_nothing_presented {s : State} (idle : coupledOp s = none) (h : s.cmdIn = []) : step s = .next s := by
  simp only [step, fetch, idle, fetchCommand, h, decode, refusalOf]

/-- Settles O6: the cut command decodes to an incomplete one (`decode_of_cut`), which the step refuses. -/
theorem commandCutShortIsRefused : Obligations.CommandCutShortIsRefused := by
  intro i k s hwf hpos hlt idle hcmd
  have hcut : (encode i).take k ≠ [] := List.ne_nil_of_length_pos (by rw [List.length_take]; omega)
  have hmissing : (encode i).drop k ≠ [] := List.ne_nil_of_length_pos (by rw [List.length_drop]; omega)
  obtain ⟨op, hdecode⟩ := decode_of_cut hwf hcut hmissing (List.take_append_drop k _).symm
  exact ⟨op, step_of_decode_error idle (hcmd ▸ hdecode) rfl⟩

/-! ### Written-out and reserved command bytes (R120, R123) -/

theorem decode_of_eq_encode {bs : List Byte} {i : Instr} (hwf : i.wellFormed = true) (h : bs = encode i) :
    decode bs = .ok (i, []) :=
  h ▸ decode_encode hwf

/-- Settles O4: each sequence is the encoding of the instruction it stands for. -/
theorem writtenOutCommandsDecode : Obligations.WrittenOutCommandsDecode := by
  refine ⟨?_, ?_, ?_, ?_, ?_, ?_⟩ <;> exact decode_of_eq_encode (by decide) (by decide)

theorem opcode_code_toNat_mem (op : Opcode) :
    op.code.toNat ∈ [0x01, 0x02, 0x11, 0x12, 0x20, 0x21, 0x22, 0x23, 0x24, 0x25, 0x26, 0x27, 0x28, 0x29, 0x2A, 0x2B,
      0x30, 0x31, 0xFF] := by
  cases op <;> decide

/-- Settles O5: a byte outside the table is the code of no operation. -/
theorem reservedCommandByteRefused : Obligations.ReservedCommandByteRefused := by
  intro s b rest idle hcmd hreserved
  have hb : opcodeOf b = none := by
    cases hop : opcodeOf b with
    | none => rfl
    | some op =>
      obtain rfl := opcodeOf_eq_some_iff.1 hop
      exact absurd (opcode_code_toNat_mem op) hreserved
  exact step_of_decode_error idle (hcmd ▸ decode_of_reserved rest hb) rfl

/-- Settles O7: what a step does with presented bytes that decode, and with none. -/
theorem stepRunsTheDecodedCommand : Obligations.StepRunsTheDecodedCommand :=
  ⟨fun _ _ _ => step_of_decode_ok, fun _ => step_of_nothing_presented⟩

/-- Settles O57: the meaning of each data format is `refuseFormat` of its name. -/
theorem dataFormatsAreNoOperations : Obligations.DataFormatsAreNoOperations := by
  intro s v t h a g q w m10 lz n0 n1 n2 n3 m14 sh l sh7
  exact ⟨rfl, rfl, rfl, rfl, rfl, rfl, rfl, rfl, rfl, rfl⟩

end Sys2Proof.Proofs.Encoding
end

section
/-! PROOFS of family 40_crc16: the shift of R141 loses nothing, so a register is determined by what it becomes after
any bytes; the check of R145 and the detection of R146 both rest on that. -/

namespace Sys2Proof.Proofs.Crc

open Sys2Proof Sys2Proof.Machine

/-! ### The meanings of the two operations (R141, R142) -/

theorem exec_crc16Step (s : State) (c : Word16) (b : Byte) :
    exec (.crc16Step c b) s = .next { s with result := .code (crc16Step c b) } := rfl

theorem exec_crc16 (s : State) (buf : List Byte) :
    exec (.crc16 buf) s = .next { s with result := .code (crcRun Config.crcInit buf ^^^ s.cfg.crcXorout) } := rfl

/-! ### One shift of the register -/

theorem crcShift_of_msb {c : Word16} (h : c.msb = true) : crcShift c = (c <<< 1) ^^^ Config.crcPoly := if_pos h

theorem crcShift_of_not_msb {c : Word16} (h : c.msb = false) : crcShift c = c <<< 1 := by
  simp [crcShift, h]

/-- The doubling of R141 on the register as a number. -/
def reducedDouble (x : Nat) : Nat := if 2 ^ 15 ≤ x then (2 * x) % 2 ^ 16 ^^^ 0x1021 else 2 * x

theorem toNat_shiftLeft_one (c : Word16) : (c <<< 1).toNat = (2 * c.toNat) % 2 ^ 16 := by
  rw [BitVec.toNat_shiftLeft, Nat.shiftLeft_eq, pow_one, Nat.mul_comm]

theorem toNat_crcShift (c : Word16) : (crcShift c).toNat = reducedDouble c.toNat := by
  have hmsb : c.msb = decide (2 ^ 15 ≤ c.toNat) := BitVec.msb_eq_decide c
  by_cases h : 2 ^ 15 ≤ c.toNat
  · rw [crcShift_of_msb (hmsb.trans (decide_eq_true h)), BitVec.toNat_xor, toNat_shiftLeft_one, reducedDouble,
      if_pos h]
    rfl
  · rw [crcShift_of_not_msb (hmsb.trans (decide_eq_false h)), toNat_shiftLeft_one, reducedDouble, if_neg h]
    omega

/-- The polynomial is odd, so the bit shifted out shows in bit 0. -/
theorem crcShift_getLsbD_zero (c : Word16) : (crcShift c).getLsbD 0 = c.msb := by
  cases h : c.msb with
  | true => rw [crcShift_of_msb h]; simp [Config.crcPoly]
  | false => rw [crcShift_of_not_msb h]; simp

theorem eq_of_msb_of_shiftLeft_one {c d : Word16} (hmsb : c.msb = d.msb) (h : c <<< 1 = d <<< 1) : c = d := by
  have hc := BitVec.msb_eq_decide c
  have hd := BitVec.msb_eq_decide d
  have htop : 2 ^ 15 ≤ c.toNat ↔ 2 ^ 15 ≤ d.toNat := by simpa [hc, hd] using hmsb
  have hlow : (2 * c.toNat) % 2 ^ 16 = (2 * d.toNat) % 2 ^ 16 := by
    rw [← toNat_shiftLeft_one, ← toNat_shiftLeft_one, h]
  exact BitVec.eq_of_toNat_eq (by omega)

theorem crcShift_injective : Function.Injective crcShift := by
  intro c d h
  have hmsb : c.msb = d.msb := by rw [← crcShift_getLsbD_zero, ← crcShift_getLsbD_zero, h]
  apply eq_of_msb_of_shiftLeft_one hmsb
  cases hd : d.msb with
  | true =>
    rw [crcShift_of_msb (hmsb.trans hd), crcShift_of_msb hd] at h
    exact (BitVec.xor_left_inj _).1 h
  | false => rwa [crcShift_of_not_msb (hmsb.trans hd), crcShift_of_not_msb hd] at h

/-! ### Several shifts -/

theorem crcShifts_eq_iterate (k : Nat) (c : Word16) : crcShifts k c = crcShift^[k] c := by
  induction k generalizing c with
  | zero => rfl
  | succ k ih => exact ih (crcShift c)

theorem crcShifts_injective (k : Nat) : Function.Injective (crcShifts k) := by
  rw [funext (crcShifts_eq_iterate k)]
  exact crcShift_injective.iterate k

theorem toNat_crcShifts (k : Nat) (c : Word16) : (crcShifts k c).toNat = reducedDouble^[k] c.toNat := by
  rw [crcShifts_eq_iterate]
  exact Function.Semiconj.iterate_right (f := BitVec.toNat) toNat_crcShift k c

/-- While no bit is shifted out, the shifts only double. -/
theorem toNat_crcShifts_of_lt {k : Nat} {c : Word16} (h : c.toNat * 2 ^ k < 2 ^ 16) :
    (crcShifts k c).toNat = c.toNat * 2 ^ k := by
  induction k generalizing c with
  | zero => simp [crcShifts]
  | succ k ih =>
    have hpow : c.toNat * 2 ^ (k + 1) = (2 * c.toNat) * 2 ^ k := by ring
    have hle : 2 * c.toNat ≤ (2 * c.toNat) * 2 ^ k := Nat.le_mul_of_pos_right _ (by positivity)
    have hdouble : (crcShift c).toNat = 2 * c.toNat := by
      rw [toNat_crcShift, reducedDouble, if_neg (by omega)]
    rw [crcShifts, ih (by rwa [hdouble, ← hpow]), hdouble, hpow]

/-! ### One byte -/

/-- A byte at the top of the register, where it enters. -/
theorem toNat_setWidth_shiftLeft_eight (b : Byte) : (b.setWidth 16 <<< 8).toNat = b.toNat * 256 := by
  have := b.isLt
  simp only [BitVec.toNat_shiftLeft, BitVec.toNat_setWidth, Nat.shiftLeft_eq]
  omega

/-- Eight shifts move a byte from the bottom of the register to its top, and no bit out of it. -/
theorem crcShifts_eight_byte (b : Byte) : crcShifts 8 (b.setWidth 16) = b.setWidth 16 <<< 8 := by
  have hb : (b.setWidth 16).toNat = b.toNat := BitVec.toNat_setWidth_of_le (by decide)
  have := b.isLt
  apply BitVec.eq_of_toNat_eq
  rw [toNat_crcShifts_of_lt (by omega), toNat_setWidth_shiftLeft_eight, hb]
  rfl

theorem crc16Step_eq (c : Word16) (b : Byte) : crc16Step c b = crcShifts 8 (c ^^^ (b.setWidth 16 <<< 8)) := rfl

theorem toNat_crc16Step (c : Word16) (b : Byte) :
    (crc16Step c b).toNat = reducedDouble^[8] (c.toNat ^^^ (b.toNat * 256)) := by
  rw [crc16Step_eq, toNat_crcShifts, BitVec.toNat_xor, toNat_setWidth_shiftLeft_eight]

theorem crc16Step_eq_ofNat (c : Word16) (b : Byte) :
    crc16Step c b = BitVec.ofNat 16 (reducedDouble^[8] (c.toNat ^^^ (b.toNat * 256))) := by
  rw [← toNat_crc16Step, BitVec.ofNat_toNat, BitVec.setWidth_eq]

theorem crc16Step_injective_register (b : Byte) : Function.Injective (crc16Step · b) := by
  intro c d h
  exact (BitVec.xor_left_inj _).1 (crcShifts_injective 8 h)

theorem crc16Step_injective_byte (c : Word16) : Function.Injective (crc16Step c) := by
  intro a b h
  have htop : a.setWidth 16 <<< 8 = b.setWidth 16 <<< 8 := (BitVec.xor_right_inj _).1 (crcShifts_injective 8 h)
  have hnat : a.toNat * 256 = b.toNat * 256 := by
    rw [← toNat_setWidth_shiftLeft_eight, ← toNat_setWidth_shiftLeft_eight, htop]
  exact BitVec.eq_of_toNat_eq (by omega)

theorem xor_upper_byte (c : Word16) :
    c ^^^ ((c.extractLsb' 8 8).setWidth 16 <<< 8) = (c.extractLsb' 0 8).setWidth 16 := by
  apply BitVec.eq_of_getLsbD_eq
  intro i hi
  by_cases low : i < 8
  · simp [low, hi]
  · have h8 : 8 + (i - 8) = i := by omega
    have h16 : i - 8 < 8 := by omega
    simp [low, hi, h8, h16]

theorem crc16Step_upper_byte (c : Word16) :
    crc16Step c (c.extractLsb' 8 8) = (c.extractLsb' 0 8).setWidth 16 <<< 8 := by
  rw [crc16Step_eq, xor_upper_byte, crcShifts_eight_byte]

theorem crc16Step_of_byte_at_top (b : Byte) : crc16Step (b.setWidth 16 <<< 8) b = 0#16 := by
  rw [crc16Step_eq, BitVec.xor_self]
  rfl

/-! ### A buffer -/

theorem crcRun_injective (bs : List Byte) : Function.Injective (crcRun · bs) := by
  induction bs with
  | nil => exact fun _ _ h => h
  | cons b bs ih => exact ih.comp (crc16Step_injective_register b)

theorem crcRun_modify_ne {f : Byte → Byte} (hf : ∀ b, f b ≠ b) (c : Word16) {bs : List Byte} {k : Nat}
    (hk : k < bs.length) : crcRun c (bs.modify k f) ≠ crcRun c bs := by
  induction bs generalizing c k with
  | nil => simp at hk
  | cons b bs ih =>
    cases k with
    | zero =>
      intro h
      exact hf b (crc16Step_injective_byte c (crcRun_injective bs h))
    | succ k => exact ih (crc16Step c b) (Nat.lt_of_succ_lt_succ hk)

/-- A register fed its own two bytes is 0: the upper byte cancels, and the lower byte moves up unreduced and cancels
then. -/
theorem crcRun_be16_self (c : Word16) : crcRun c (be16 c) = 0#16 := by
  rw [be16, crcRun_cons, crcRun_cons, crcRun_nil, crc16Step_upper_byte, crc16Step_of_byte_at_top]

theorem crcRun_be16_eq_zero_iff (c w : Word16) : crcRun c (be16 w) = 0#16 ↔ c = w := by
  rw [← crcRun_be16_self w]
  exact (crcRun_injective (be16 w)).eq_iff

/-! ### The check of a frame (R145) -/

theorem crc16_zero (bs : List Byte) : crc16 0#16 bs = crcRun Config.crcInit bs := BitVec.xor_zero

theorem crcValidFlag_eq_true_iff {cfg : Config} {hdr payload : List Byte} {crc : Word16} :
    crcValidFlag cfg hdr payload crc = true ↔ crc16 cfg.crcXorout (hdr ++ payload) = crc := beq_iff_eq

theorem crcValidFlag_eq_false_iff {cfg : Config} {hdr payload : List Byte} {crc : Word16} :
    crcValidFlag cfg hdr payload crc = false ↔ crc16 cfg.crcXorout (hdr ++ payload) ≠ crc := beq_eq_false_iff_ne

/-- Data that leaves another register than valid data does is not valid with the same CRC. -/
theorem crcValidFlag_eq_false_of_crcRun_ne {cfg : Config} {hdr hdr' payload payload' : List Byte} {crc : Word16}
    (valid : crcValidFlag cfg hdr payload crc = true)
    (hne : crcRun Config.crcInit (hdr' ++ payload') ≠ crcRun Config.crcInit (hdr ++ payload)) :
    crcValidFlag cfg hdr' payload' crc = false := by
  rw [crcValidFlag_eq_true_iff] at valid
  rw [crcValidFlag_eq_false_iff, ← valid]
  exact fun h => hne ((BitVec.xor_left_inj _).1 h)

theorem xor_bit_ne {w j : Nat} (hj : j < w) (x : BitVec w) : x ^^^ (1#w <<< j) ≠ x := by
  intro h
  have hbit := congrArg (·.getLsbD j) h
  simp [hj] at hbit

/-! ### The obligations -/

/-- Settles O27: each shift is the doubling `reducedDouble` of the register's number (`toNat_crcShift`). -/
theorem crcStepDividesByThePolynomial : Obligations.CrcStepDividesByThePolynomial := by
  intro s c b
  rw [exec_crc16Step, crc16Step_eq_ofNat]
  rfl

/-- Settles O28: the register of a buffer is `crcRun` from the preset. -/
theorem crcOfABufferIsTheRunningRegister : Obligations.CrcOfABufferIsTheRunningRegister := by
  refine ⟨crcRun Config.crcInit, rfl, ?_, fun s buf => exec_crc16 s buf⟩
  intro s buf b
  rw [exec_crc16Step, crcRun_append, crcRun_cons, crcRun_nil]

/-- Settles O29: a register fed two bytes is 0 exactly when the bytes are its own (`crcRun_be16_eq_zero_iff`). -/
theorem crcOverDataAndCrcIsZero : Obligations.CrcOverDataAndCrcIsZero := by
  intro buf c
  simp only [crc16_zero, crcRun_append]
  exact crcRun_be16_eq_zero_iff _ c

/-- Settles O30: an inverted bit of the data makes another register (`crcRun_modify_ne`), and one register is not equal
to both a CRC and that CRC with a bit inverted. -/
theorem singleBitErrorIsDetected : Obligations.SingleBitErrorIsDetected := by
  intro cfg hdr payload crc valid
  refine ⟨fun k j hk hj => ?_, fun k j hk hj => ?_, fun j hj => ?_⟩
  · apply crcValidFlag_eq_false_of_crcRun_ne valid
    simp only [crcRun_append]
    exact (crcRun_injective payload).ne (crcRun_modify_ne (xor_bit_ne hj) _ hk)
  · apply crcValidFlag_eq_false_of_crcRun_ne valid
    simp only [crcRun_append]
    exact crcRun_modify_ne (xor_bit_ne hj) _ hk
  · rw [crcValidFlag_eq_true_iff] at valid
    rw [crcValidFlag_eq_false_iff, valid]
    exact (xor_bit_ne hj crc).symm

end Sys2Proof.Proofs.Crc
end

section
/-! PROOFS of family 41_sync: what a byte and `SYNC.END` do in each `sync_state`, and the recovery of a clean stream
(R162), byte sequence by byte sequence: a gap, the marker, the header, the body. -/

namespace Sys2Proof.Proofs.Sync

open Sys2Proof Sys2Proof.Machine
open Sys2Proof.Proofs.Scope (shiftWindow_eq_ofNat exec_syncPush_filler)
open Sys2Proof.Proofs.UnitState (latches bufferedFields latches_parseHeader)
open Sys2Proof.Proofs.Memory (execAll_cons_of_next)
open Sys2Proof.Proofs.Crc (crcValidFlag_eq_true_iff)

/-! ### The meaning of an operation in each `sync_state` (R150, R160) -/

theorem exec_syncPush_seeking {s : State} {b : Byte} (seeking : s.syncState = .seekingSync)
    (other : b ≠ Config.filler) : exec (.syncPush b) s = .next (seekByte b s) := by
  simp [exec, execSyncPush, seeking, other]

theorem exec_syncPush_readingHeader {s : State} (b : Byte) (reading : s.syncState = .readingHeader) :
    exec (.syncPush b) s = .next (headerByte b s) := by
  simp [exec, execSyncPush, reading]

theorem exec_syncPush_readingBody {s : State} (b : Byte) (reading : s.syncState = .readingBody) :
    exec (.syncPush b) s = .next (bodyByte b s) := by
  simp [exec, execSyncPush, reading]

theorem exec_syncPush_done {s : State} (b : Byte) (done : s.syncState = .done) :
    exec (.syncPush b) s = .refused .syncDone := by
  simp [exec, execSyncPush, done]

theorem exec_syncEnd_seeking {s : State} (seeking : s.syncState = .seekingSync) :
    exec .syncEnd s = .next (enterDone (endSeek s)) := by
  simp [exec, execSyncEnd, seeking]

theorem exec_syncEnd_reading {s : State} (reading : s.syncState = .readingHeader ∨ s.syncState = .readingBody) :
    exec .syncEnd s = .next (enterDone (endPartial s)) := by
  rcases reading with h | h <;> simp [exec, execSyncEnd, h]

theorem exec_syncEnd_done {s : State} (done : s.syncState = .done) : exec .syncEnd s = .refused .syncDone := by
  simp [exec, execSyncEnd, done]

/-! ### A byte in `SEEKING_SYNC` (R151 to R153) -/

theorem skipFiller_of_not_entersWindow {s : State} (b : Byte) (skips : s.cfg.fillerEntersWindow = false) :
    skipFiller b s = s := by
  simp [skipFiller, skips]

theorem exec_filler_skipped {s : State} (seeking : s.syncState = .seekingSync)
    (skips : s.cfg.fillerEntersWindow = false) : exec (.syncPush Config.filler) s = .next s := by
  rw [exec_syncPush_filler seeking, skipFiller_of_not_entersWindow _ skips]

theorem seekByte_of_no_marker {s : State} {b : Byte} (noMarker : shiftWindow s.window b ≠ Config.syncMarker) :
    seekByte b s =
      { s with window := shiftWindow s.window b, seekCount := satAdd s.cfg.garbageWidth s.seekCount 1 } :=
  ((seekByte_cases b s).resolve_right fun ⟨found, _⟩ => noMarker found).2

/-- The byte that completes the marker (R153), with `n` for the bytes counted up to it. -/
theorem seekByte_of_marker {s : State} {b : Byte} {n : Nat} (found : shiftWindow s.window b = Config.syncMarker)
    (count : n = satAdd s.cfg.garbageWidth s.seekCount 1) :
    seekByte b s =
      { s with garbageCount := satAdd s.cfg.garbageWidth s.garbageCount (n - 2)
               syncDiag := s.syncDiag ++ if n ≤ 2 then [] else [.syncLoss (n - 2)]
               window := 0, seekCount := 0, hdrBuf := [], syncState := .readingHeader } := by
  rw [((seekByte_cases b s).resolve_left fun ⟨noMarker, _⟩ => noMarker found).2, markerFound_eq, count]
  simp only [Nat.sub_eq_zero_iff_le]

/-- The window holds the marker exactly when its last two bytes are the marker's. -/
theorem shiftWindow_eq_marker_iff (w : Word16) (b : Byte) :
    shiftWindow w b = Config.syncMarker ↔ w.extractLsb' 0 8 = 0xEC#8 ∧ b = 0xA0#8 := by
  constructor
  · intro found
    have high := shiftWindow_high w b
    have low := shiftWindow_low w b
    rw [found] at high low
    exact ⟨high.symm, low.symm⟩
  · rintro ⟨high, low⟩
    rw [← u16be_of_be16 (shiftWindow w b), shiftWindow_high, shiftWindow_low, high, low]
    rfl

/-- Settles O9: filler is left to `skipFiller`, which does nothing while the parameter is false. -/
theorem fillerIsSilentlySkipped : Obligations.FillerIsSilentlySkipped :=
  fun _ seeking skips => exec_filler_skipped seeking skips

/-- Settles O11: the shift of R23 as arithmetic, in the case of `seekByte` that finds no marker. -/
theorem seekByteIsShiftedAndCounted : Obligations.SeekByteIsShiftedAndCounted := by
  intro s b seeking other noMarker
  rw [← shiftWindow_eq_ofNat] at noMarker ⊢
  rw [exec_syncPush_seeking seeking other, seekByte_of_no_marker noMarker]
  rfl

/-- Settles O12: at the marker the window before the byte ends in `0xEC`, so the invariant has that byte counted. -/
theorem markerEndsTheSeek : Obligations.MarkerEndsTheSeek := by
  intro s b inv seeking other found n
  rw [← shiftWindow_eq_ofNat] at found
  constructor
  · intro width
    obtain ⟨half, -⟩ := (shiftWindow_eq_marker_iff s.window b).1 found
    have counted : s.seekCount ≠ 0 := inv.sync.half_marker half (by omega)
    have room : 2 ^ 2 ≤ 2 ^ s.cfg.garbageWidth := Nat.pow_le_pow_right (by decide) width
    omega
  · rw [exec_syncPush_seeking seeking other, seekByte_of_marker found rfl]
    rfl

/-! ### A byte in `READING_HEADER` (R154, R155) -/

theorem headerByte_of_more {s : State} (b : Byte) (more : s.hdrBuf.length + 1 ≠ Config.headerLen) :
    headerByte b s = { s with hdrBuf := s.hdrBuf ++ [b] } :=
  ((headerByte_cases b s).resolve_right fun ⟨last, _⟩ => more last).2

theorem headerByte_of_last {s : State} (b : Byte) (last : s.hdrBuf.length + 1 = Config.headerLen) :
    headerByte b s =
      { parseHeader { s with hdrBuf := s.hdrBuf ++ [b] } with bodyBuf := [], syncState := .readingBody } :=
  ((headerByte_cases b s).resolve_left fun ⟨more, _⟩ => more last).2

theorem u16be_eq_ofNat (b0 b1 : Byte) : u16be b0 b1 = BitVec.ofNat 16 (b0.toNat * 256 + b1.toNat) := by
  have h := shiftWindow_eq_ofNat (b0.setWidth 16) b1
  rwa [BitVec.toNat_setWidth_of_le (by decide)] at h

theorem toNat_u16be (b0 b1 : Byte) : (u16be b0 b1).toNat = b0.toNat * 256 + b1.toNat := by
  have := b0.isLt
  have := b1.isLt
  rw [u16be_eq_ofNat, BitVec.toNat_ofNat]
  omega

/-- A field of a word, as arithmetic. -/
theorem extractLsb'_eq_ofNat {w : Nat} (x : BitVec w) (start len : Nat) :
    x.extractLsb' start len = BitVec.ofNat len (x.toNat / 2 ^ start) := by
  apply BitVec.eq_of_toNat_eq
  rw [BitVec.extractLsb'_toNat, BitVec.toNat_ofNat, Nat.shiftRight_eq_div_pow]

theorem ofNat_eq_ofNat_of_mod {w x y : Nat} (h : x % 2 ^ w = y % 2 ^ w) : BitVec.ofNat w x = BitVec.ofNat w y :=
  BitVec.eq_of_toNat_eq (by simpa using h)

/-- The fields of header word 0 in its two bytes (R92, R95). -/
theorem w0_fields_u16be (b0 b1 : Byte) :
    w0Version (u16be b0 b1) = BitVec.ofNat 3 (b0.toNat / 32) ∧
    w0Ptype (u16be b0 b1) = BitVec.ofNat 1 (b0.toNat / 16) ∧
    w0SecHdr (u16be b0 b1) = BitVec.ofNat 1 (b0.toNat / 8) ∧
    w0Appid (u16be b0 b1) = BitVec.ofNat 11 (b0.toNat % 8 * 256 + b1.toNat) := by
  have := b1.isLt
  simp only [w0Version, w0Ptype, w0SecHdr, w0Appid, extractLsb'_eq_ofNat, toNat_u16be]
  refine ⟨?_, ?_, ?_, ?_⟩ <;> apply ofNat_eq_ofNat_of_mod <;> omega

/-- The fields of header word 1 in its two bytes (R93, R95). -/
theorem w1_fields_u16be (b2 b3 : Byte) :
    w1Gflags (u16be b2 b3) = BitVec.ofNat 2 (b2.toNat / 64) ∧
    w1Seq (u16be b2 b3) = BitVec.ofNat 14 (b2.toNat % 64 * 256 + b3.toNat) := by
  have := b3.isLt
  simp only [w1Gflags, w1Seq, extractLsb'_eq_ofNat, toNat_u16be]
  refine ⟨?_, ?_⟩ <;> apply ofNat_eq_ofNat_of_mod <;> omega

/-- Settles O13: the two cases of `headerByte`, and each field's bit position as arithmetic on the two bytes of its
word. -/
theorem headerBytesAreStoredAndParsed : Obligations.HeaderBytesAreStoredAndParsed := by
  constructor
  · intro s b reading more
    rw [exec_syncPush_readingHeader b reading, headerByte_of_more b more]
  · intro s b0 b1 b2 b3 b4 b5 reading hbuf
    have last : s.hdrBuf.length + 1 = Config.headerLen := by rw [hbuf]; rfl
    obtain ⟨hversion, htype, hsec, happid⟩ := w0_fields_u16be b0 b1
    obtain ⟨hgflags, hseq⟩ := w1_fields_u16be b2 b3
    rw [exec_syncPush_readingHeader b5 reading, headerByte_of_last b5 last, hbuf, ← hversion, ← htype, ← hsec,
      ← happid, ← hgflags, ← hseq, ← u16be_eq_ofNat]
    rfl

/-! ### A byte in `READING_BODY` (R156) -/

theorem bodyByte_of_more {s : State} (b : Byte) (more : s.bodyBuf.length + 1 ≠ bodyNeed s) :
    bodyByte b s = { s with bodyBuf := s.bodyBuf ++ [b] } :=
  ((bodyByte_cases b s).resolve_right fun ⟨last, _⟩ => more last).2

theorem bodyByte_of_last {s : State} (b : Byte) (last : s.bodyBuf.length + 1 = bodyNeed s) :
    bodyByte b s = completeFrame { s with bodyBuf := s.bodyBuf ++ [b] } :=
  ((bodyByte_cases b s).resolve_left fun ⟨more, _⟩ => more last).2

/-- The frame of a complete body, cut into payload and CRC. -/
theorem receivedFrame_eq {s : State} {payload : List Byte} {c1 c0 : Byte}
    (hlen : payload.length = s.hDlen.toNat + 1) (hbody : s.bodyBuf = payload ++ [c1, c0]) :
    receivedFrame s =
      { latches s with
        payload := payload, crcRx := u16be c1 c0
        crcValid := crcValidFlag s.cfg s.hdrBuf payload (u16be c1 c0) } := by
  have hneed : bodyNeed s = payload.length + 2 := by rw [hlen]; rfl
  simp [receivedFrame, latches, hneed, hbody]

/-- Settles O14: the two cases of `bodyByte`, and the frame of the complete body (`receivedFrame_eq`). -/
theorem bodyBytesCompleteTheFrame : Obligations.BodyBytesCompleteTheFrame := by
  constructor
  · intro s b reading more
    rw [exec_syncPush_readingBody b reading, bodyByte_of_more b more]
  · intro s payload c1 c0 reading hlen hbody crcRx ok
    have last : s.bodyBuf.length + 1 = bodyNeed s := by
      rw [hbody, List.length_append, hlen]
      rfl
    have hfull : s.bodyBuf ++ [c0] = payload ++ [c1, c0] := by rw [hbody, List.append_assoc]; rfl
    have hcrc : u16be c1 c0 = crcRx := u16be_eq_ofNat c1 c0
    rw [exec_syncPush_readingBody c0 reading, bodyByte_of_last c0 last, hfull, completeFrame_eq,
      receivedFrame_eq (s := { s with bodyBuf := payload ++ [c1, c0] }) hlen rfl, hcrc]
    rfl

/-! ### The end of the stream (R160) -/

theorem endPartial_of_reading {s : State} (reading : s.syncState = .readingHeader ∨ s.syncState = .readingBody) :
    endPartial s = { s with partialAtEnd := true } := by
  rcases reading with h | h <;> simp [endPartial, endsInsideFrame, h]

/-- Settles O15: one equation for each `sync_state`. -/
theorem syncEndFinishesTheStream : Obligations.SyncEndFinishesTheStream := by
  refine fun s => ⟨fun seeking => ?_, fun reading => ?_, exec_syncEnd_done⟩
  · rw [exec_syncEnd_seeking seeking, endSeek_eq]
    rfl
  · rw [exec_syncEnd_reading reading, endPartial_of_reading reading]
    rfl

/-- Settles O16, by the four values of `sync_state`. -/
theorem syncPushRefusedExactlyInDone : Obligations.SyncPushRefusedExactlyInDone := by
  refine fun s b => ⟨exec_syncPush_done b, fun notDone => ?_⟩
  cases hs : s.syncState with
  | seekingSync =>
    by_cases hb : b = Config.filler
    · exact ⟨_, hb ▸ exec_syncPush_filler hs⟩
    · exact ⟨_, exec_syncPush_seeking hs hb⟩
  | readingHeader => exact ⟨_, exec_syncPush_readingHeader b hs⟩
  | readingBody => exact ⟨_, exec_syncPush_readingBody b hs⟩
  | done => exact absurd hs notDone

/-! ### Byte sequences fed one after another (R76, R127) -/

theorem execAll_append_of_next {is : List Instr} {s t : State} (js : List Instr) (h : execAll is s = .next t) :
    execAll (is ++ js) s = execAll js t := by
  induction is generalizing s with
  | nil => cases h; rfl
  | cons i is ih =>
    cases hi : exec i s with
    | next u =>
      rw [execAll_cons_of_next is hi] at h
      rw [List.cons_append, execAll_cons_of_next _ hi, ih h]
    | fault r => cases r
    | refused r => simp [execAll, hi] at h

theorem execAll_syncFeed_append {bs cs : List Byte} {s t u : State} (hbs : execAll (syncFeed bs) s = .next t)
    (hcs : execAll (syncFeed cs) t = .next u) : execAll (syncFeed (bs ++ cs)) s = .next u := by
  rw [syncFeed, List.map_append, ← syncFeed, ← syncFeed, execAll_append_of_next _ hbs, hcs]

/-- One byte. -/
theorem execAll_syncFeed_singleton {b : Byte} {s t : State} (h : exec (.syncPush b) s = .next t) :
    execAll (syncFeed [b]) s = .next t :=
  execAll_cons_of_next [] h

/-- Bytes that are stored one by one: `buffering bs` is the state with `bs` stored. -/
theorem execAll_syncFeed_buffered (buffering : List Byte → State) {bs : List Byte}
    (store : ∀ pre b, pre.length < bs.length →
      exec (.syncPush b) (buffering pre) = .next (buffering (pre ++ [b]))) :
    execAll (syncFeed bs) (buffering []) = .next (buffering bs) := by
  induction bs using List.reverseRecOn with
  | nil => rfl
  | append_singleton bs b ih =>
    have hbs := ih fun pre c hpre => store pre c (by rw [List.length_append]; omega)
    exact execAll_syncFeed_append hbs (execAll_syncFeed_singleton (store bs b (by simp)))

/-! ### A gap (R151, R152) -/

theorem garbageOf_filler_cons (gap : List Byte) : garbageOf (Config.filler :: gap) = garbageOf gap := rfl

theorem garbageOf_cons {b : Byte} (gap : List Byte) (other : b ≠ Config.filler) :
    garbageOf (b :: gap) = b :: garbageOf gap :=
  List.filter_cons_of_pos (by simpa using other)

theorem garbageOf_append (gap gap' : List Byte) : garbageOf (gap ++ gap') = garbageOf gap ++ garbageOf gap' :=
  List.filter_append _ _

theorem garbageOf_length_le (gap : List Byte) : (garbageOf gap).length ≤ gap.length := List.length_filter_le _ _

/-- `s` after the garbage bytes `bs`, with no marker among them and no counter saturated. -/
def scanned (bs : List Byte) (s : State) : State :=
  { s with window := bs.foldl shiftWindow s.window, seekCount := s.seekCount + bs.length }

@[simp] theorem scanned_syncState (bs : List Byte) (s : State) : (scanned bs s).syncState = s.syncState := rfl
@[simp] theorem scanned_seekCount (bs : List Byte) (s : State) :
    (scanned bs s).seekCount = s.seekCount + bs.length := rfl
@[simp] theorem scanned_garbageCount (bs : List Byte) (s : State) :
    (scanned bs s).garbageCount = s.garbageCount := rfl
@[simp] theorem scanned_syncDiag (bs : List Byte) (s : State) : (scanned bs s).syncDiag = s.syncDiag := rfl
@[simp] theorem scanned_cfg (bs : List Byte) (s : State) : (scanned bs s).cfg = s.cfg := rfl

/-- The last garbage byte is the newer one in the window. -/
theorem low_window_scanned (b : Byte) (s : State) : (scanned [b] s).window.extractLsb' 0 8 = b :=
  shiftWindow_low s.window b

theorem scanned_cons (b : Byte) (bs : List Byte) (s : State) : scanned (b :: bs) s = scanned bs (scanned [b] s) := by
  simp only [scanned, List.foldl_cons, List.foldl_nil, List.length_cons, List.length_nil]
  congr 1
  omega

theorem exec_garbage_byte {s : State} {b : Byte} (seeking : s.syncState = .seekingSync) (other : b ≠ Config.filler)
    (noMarker : ¬ (s.window.extractLsb' 0 8 = 0xEC#8 ∧ b = 0xA0#8))
    (room : s.seekCount + 1 < 2 ^ s.cfg.garbageWidth) : exec (.syncPush b) s = .next (scanned [b] s) := by
  rw [exec_syncPush_seeking seeking other, seekByte_of_no_marker (mt (shiftWindow_eq_marker_iff _ _).1 noMarker),
    satAdd_of_lt room]
  rfl

/-- A gap is scanned if no marker stands in it, the byte in the window before it included. -/
theorem execAll_gap (gap : List Byte) {s : State} (seeking : s.syncState = .seekingSync)
    (skips : s.cfg.fillerEntersWindow = false)
    (clean : ¬ [0xEC#8, 0xA0#8] <:+: s.window.extractLsb' 0 8 :: garbageOf gap)
    (room : s.seekCount + (garbageOf gap).length < 2 ^ s.cfg.garbageWidth) :
    execAll (syncFeed gap) s = .next (scanned (garbageOf gap) s) := by
  induction gap generalizing s with
  | nil => rfl
  | cons b gap ih =>
    by_cases hb : b = Config.filler
    · subst hb
      exact execAll_syncFeed_append (bs := [Config.filler])
        (execAll_syncFeed_singleton (exec_filler_skipped seeking skips)) (ih seeking skips clean room)
    · rw [garbageOf_cons gap hb] at clean room ⊢
      rw [List.length_cons] at room
      have noMarker : ¬ (s.window.extractLsb' 0 8 = 0xEC#8 ∧ b = 0xA0#8) := by
        rintro ⟨high, low⟩
        exact clean (high ▸ low ▸ List.infix_append [] _ (garbageOf gap))
      have hclean : ¬ [0xEC#8, 0xA0#8] <:+: (scanned [b] s).window.extractLsb' 0 8 :: garbageOf gap := by
        rw [low_window_scanned]
        exact mt List.infix_cons clean
      have hroom : (scanned [b] s).seekCount + (garbageOf gap).length < 2 ^ s.cfg.garbageWidth := by
        rw [scanned_seekCount, List.length_singleton]
        omega
      rw [scanned_cons]
      exact execAll_syncFeed_append (bs := [b])
        (execAll_syncFeed_singleton (exec_garbage_byte seeking hb noMarker (by omega)))
        (ih seeking skips hclean hroom)

/-- `SYNC` between two frames, with nothing seen since the last one. -/
structure Searching (s : State) : Prop where
  seeking : s.syncState = .seekingSync
  window : s.window = 0
  seekCount : s.seekCount = 0

theorem seekCount_scanned (bs : List Byte) {s : State} (searching : Searching s) :
    (scanned bs s).seekCount = bs.length := by
  rw [scanned_seekCount, searching.seekCount, Nat.zero_add]

theorem execAll_cleanGap {gap : List Byte} {s : State} (searching : Searching s)
    (skips : s.cfg.fillerEntersWindow = false) (clean : cleanGap gap)
    (room : (garbageOf gap).length < 2 ^ s.cfg.garbageWidth) :
    execAll (syncFeed gap) s = .next (scanned (garbageOf gap) s) := by
  apply execAll_gap gap searching.seeking skips
  · rw [searching.window, List.infix_cons_iff]
    rintro (before | inside)
    · exact absurd (List.cons_prefix_cons.1 before).1 (by decide)
    · exact clean inside
  · rwa [searching.seekCount, Nat.zero_add]

/-! ### The marker (R153) -/

/-- The event for `g` garbage bytes, if there are any (R302). -/
def lossEvents (g : Nat) : List SyncEvent := if g = 0 then [] else [.syncLoss g]

theorem gapEvents_eq (gap : List Byte) : gapEvents gap = lossEvents (garbageOf gap).length := by
  simp [gapEvents, lossEvents]

/-- `s` after the marker, the bytes counted before it being garbage. -/
def headerOpened (s : State) : State :=
  { s with garbageCount := s.garbageCount + s.seekCount, syncDiag := s.syncDiag ++ lossEvents s.seekCount
           window := 0, seekCount := 0, hdrBuf := [], syncState := .readingHeader }

/-- The marker is found whatever precedes it, a first marker byte included (R158). -/
theorem execAll_marker {s : State} (seeking : s.syncState = .seekingSync)
    (seekRoom : s.seekCount + 2 < 2 ^ s.cfg.garbageWidth)
    (garbageRoom : s.garbageCount + s.seekCount < 2 ^ s.cfg.garbageWidth) :
    execAll (syncFeed (be16 Config.syncMarker)) s = .next (headerOpened s) := by
  have first : exec (.syncPush 0xEC#8) s = .next (scanned [0xEC#8] s) :=
    exec_garbage_byte seeking (by decide) (fun ⟨_, h⟩ => absurd h (by decide)) (by omega)
  have found : shiftWindow (scanned [0xEC#8] s).window 0xA0#8 = Config.syncMarker :=
    (shiftWindow_eq_marker_iff _ _).2 ⟨low_window_scanned _ _, rfl⟩
  have count : s.seekCount + 2 = satAdd s.cfg.garbageWidth (scanned [0xEC#8] s).seekCount 1 :=
    (satAdd_of_lt seekRoom).symm
  have second : exec (.syncPush 0xA0#8) (scanned [0xEC#8] s) = .next (headerOpened s) := by
    rw [exec_syncPush_seeking (s := scanned [0xEC#8] s) seeking (by decide), seekByte_of_marker found count,
      Nat.add_sub_cancel]
    simp [scanned, headerOpened, lossEvents, satAdd_of_lt garbageRoom]
  exact execAll_syncFeed_append (bs := [0xEC#8]) (execAll_syncFeed_singleton first)
    (execAll_syncFeed_singleton second)

/-! ### The header (R154, R155) -/

/-- `s` with the header bytes `bs` stored. -/
def withHdrBuf (bs : List Byte) (s : State) : State := { s with hdrBuf := bs }

/-- `s` with the header bytes `hdr` read and parsed. -/
def headerRead (hdr : List Byte) (s : State) : State :=
  { parseHeader (withHdrBuf hdr s) with bodyBuf := [], syncState := .readingBody }

theorem exec_header_more {s : State} {bs : List Byte} (b : Byte) (reading : s.syncState = .readingHeader)
    (more : bs.length + 1 ≠ Config.headerLen) :
    exec (.syncPush b) (withHdrBuf bs s) = .next (withHdrBuf (bs ++ [b]) s) :=
  (exec_syncPush_readingHeader (s := withHdrBuf bs s) b reading).trans (congrArg _ (headerByte_of_more b more))

theorem exec_header_last {s : State} {bs : List Byte} (b : Byte) (reading : s.syncState = .readingHeader)
    (last : bs.length + 1 = Config.headerLen) :
    exec (.syncPush b) (withHdrBuf bs s) = .next (headerRead (bs ++ [b]) s) :=
  (exec_syncPush_readingHeader (s := withHdrBuf bs s) b reading).trans (congrArg _ (headerByte_of_last b last))

theorem execAll_header {s : State} {hdr : List Byte} (reading : s.syncState = .readingHeader)
    (hlen : hdr.length = Config.headerLen) :
    execAll (syncFeed hdr) (withHdrBuf [] s) = .next (headerRead hdr s) := by
  obtain ⟨bs, b, rfl⟩ : ∃ bs b, hdr = bs ++ [b] :=
    (List.eq_nil_or_concat' hdr).resolve_left (by rintro rfl; cases hlen)
  have last : bs.length + 1 = Config.headerLen := by simpa using hlen
  have stored : execAll (syncFeed bs) (withHdrBuf [] s) = .next (withHdrBuf bs s) :=
    execAll_syncFeed_buffered (withHdrBuf · s) fun _ c hpre => exec_header_more c reading (by omega)
  exact execAll_syncFeed_append stored (execAll_syncFeed_singleton (exec_header_last b reading last))

theorem latches_headerRead (f : RawFrame) (s : State) :
    latches (headerRead (headerBytes f) s) = { f with payload := [], crcRx := 0, crcValid := false } := by
  have hparsed : latches (headerRead (headerBytes f) s) = bufferedFields (withHdrBuf (headerBytes f) s) :=
    latches_parseHeader _
  rw [hparsed]
  simp [bufferedFields, withHdrBuf, headerBytes, be16, headerFields]

theorem hDlen_headerRead (f : RawFrame) (s : State) : (headerRead (headerBytes f) s).hDlen = f.dlen := by
  have h : (latches (headerRead (headerBytes f) s)).dlen = f.dlen := by rw [latches_headerRead]
  exact h

/-! ### The body (R156) -/

/-- `s` with the body bytes `bs` stored. -/
def withBodyBuf (bs : List Byte) (s : State) : State := { s with bodyBuf := bs }

theorem exec_body_more {s : State} {bs : List Byte} (b : Byte) (reading : s.syncState = .readingBody)
    (more : bs.length + 1 ≠ bodyNeed s) :
    exec (.syncPush b) (withBodyBuf bs s) = .next (withBodyBuf (bs ++ [b]) s) :=
  (exec_syncPush_readingBody (s := withBodyBuf bs s) b reading).trans (congrArg _ (bodyByte_of_more b more))

theorem exec_body_last {s : State} {bs : List Byte} (b : Byte) (reading : s.syncState = .readingBody)
    (last : bs.length + 1 = bodyNeed s) :
    exec (.syncPush b) (withBodyBuf bs s) = .next (completeFrame (withBodyBuf (bs ++ [b]) s)) :=
  (exec_syncPush_readingBody (s := withBodyBuf bs s) b reading).trans (congrArg _ (bodyByte_of_last b last))

theorem execAll_body {s : State} {body : List Byte} (reading : s.syncState = .readingBody)
    (hlen : body.length = bodyNeed s) :
    execAll (syncFeed body) (withBodyBuf [] s) = .next (completeFrame (withBodyBuf body s)) := by
  obtain ⟨bs, b, rfl⟩ : ∃ bs b, body = bs ++ [b] :=
    (List.eq_nil_or_concat' body).resolve_left (by rintro rfl; cases hlen)
  have last : bs.length + 1 = bodyNeed s := by simpa using hlen
  have stored : execAll (syncFeed bs) (withBodyBuf [] s) = .next (withBodyBuf bs s) :=
    execAll_syncFeed_buffered (withBodyBuf · s) fun _ c hpre => exec_body_more c reading (by omega)
  exact execAll_syncFeed_append stored (execAll_syncFeed_singleton (exec_body_last b reading last))

/-- The frame received from the bytes of `f` is `f`, with the CRC's bytes and what the check of R145 says of them. -/
theorem receivedFrame_of_wire {f : RawFrame} (s : State) (crc : Word16) (sized : f.sized = true) :
    receivedFrame (withBodyBuf (f.payload ++ be16 crc) (headerRead (headerBytes f) s)) =
      { f with crcRx := crc, crcValid := crcValidFlag s.cfg (headerBytes f) f.payload crc } := by
  have hlen : f.payload.length = (headerRead (headerBytes f) s).hDlen.toNat + 1 := by
    rw [hDlen_headerRead]
    exact eq_of_beq sized
  rw [receivedFrame_eq (s := withBodyBuf (f.payload ++ be16 crc) (headerRead (headerBytes f) s)) hlen rfl,
    u16be_of_be16]
  exact congrArg
    (fun g : RawFrame =>
      { g with payload := f.payload, crcRx := crc, crcValid := crcValidFlag s.cfg (headerBytes f) f.payload crc })
    (latches_headerRead f s)

/-! ### A gap and a frame (R162) -/

/-- `f` with the declared length of its payload (R99). -/
def withDlen (f : RawFrame) : RawFrame := { f with dlen := BitVec.ofNat 16 (f.payload.length - 1) }

/-- The bytes of a frame after its header. -/
def wireBody (xorout : Word16) (f : RawFrame) : List Byte :=
  f.payload ++ be16 (crc16 xorout (headerBytes (withDlen f) ++ f.payload))

theorem wireFrame_eq (xorout : Word16) (f : RawFrame) :
    wireFrame xorout f = be16 Config.syncMarker ++ (headerBytes (withDlen f) ++ wireBody xorout f) := by
  simp only [wireFrame, wireBody, withDlen, List.append_assoc]

theorem withDlen_sized {f : RawFrame} (hmin : 1 ≤ f.payload.length) (hmax : f.payload.length ≤ 65536) :
    (withDlen f).sized = true := by
  simp only [RawFrame.sized, withDlen, BitVec.toNat_ofNat, beq_iff_eq]
  omega

theorem wireBody_length {f : RawFrame} (xorout : Word16) (s : State) (sized : (withDlen f).sized = true) :
    (wireBody xorout f).length = bodyNeed (headerRead (headerBytes (withDlen f)) s) := by
  have hpayload : f.payload.length = (withDlen f).dlen.toNat + 1 := eq_of_beq sized
  rw [bodyNeed, hDlen_headerRead, wireBody, List.length_append, hpayload]
  rfl

/-- The CRC sent is the one computed, so the frame received is valid (R99, R145). -/
theorem receivedFrame_wireBody {f : RawFrame} (s : State) (sized : (withDlen f).sized = true) :
    receivedFrame (withBodyBuf (wireBody s.cfg.crcXorout f) (headerRead (headerBytes (withDlen f)) s)) =
      emittedFrame s.cfg.crcXorout f := by
  have valid : crcValidFlag s.cfg (headerBytes (withDlen f)) (withDlen f).payload
      (crc16 s.cfg.crcXorout (headerBytes (withDlen f) ++ f.payload)) = true := crcValidFlag_eq_true_iff.2 rfl
  refine (receivedFrame_of_wire s _ sized).trans ?_
  rw [valid]
  rfl

/-- `t` comes after `s` once the frames `fs` were received, the events `es` raised and `g` garbage bytes seen. -/
structure Recovers (s t : State) (fs : List RawFrame) (es : List SyncEvent) (g : Nat) : Prop where
  searching : Searching t
  cfg : t.cfg = s.cfg
  frameOut : t.frameOut = s.frameOut ++ fs
  syncDiag : t.syncDiag = s.syncDiag ++ es
  garbageCount : t.garbageCount = s.garbageCount + g
  partialAtEnd : t.partialAtEnd = s.partialAtEnd

theorem Recovers.refl {s : State} (searching : Searching s) : Recovers s s [] [] 0 :=
  ⟨searching, rfl, (List.append_nil _).symm, (List.append_nil _).symm, rfl, rfl⟩

theorem Recovers.trans {s t u : State} {fs fs' : List RawFrame} {es es' : List SyncEvent} {g g' : Nat}
    (h : Recovers s t fs es g) (h' : Recovers t u fs' es' g') : Recovers s u (fs ++ fs') (es ++ es') (g + g') where
  searching := h'.searching
  cfg := h'.cfg.trans h.cfg
  frameOut := by rw [h'.frameOut, h.frameOut, List.append_assoc]
  syncDiag := by rw [h'.syncDiag, h.syncDiag, List.append_assoc]
  garbageCount := by rw [h'.garbageCount, h.garbageCount, Nat.add_assoc]
  partialAtEnd := h'.partialAtEnd.trans h.partialAtEnd

/-- A frame as sent, after its marker: it is emitted with `crc_valid` 1 and the search starts clean. -/
theorem execAll_frame {f : RawFrame} {s : State} (reading : s.syncState = .readingHeader)
    (hmin : 1 ≤ f.payload.length) (hmax : f.payload.length ≤ 65536) :
    ∃ t, execAll (syncFeed (headerBytes (withDlen f) ++ wireBody s.cfg.crcXorout f)) (withHdrBuf [] s) = .next t ∧
      Recovers s t [emittedFrame s.cfg.crcXorout f] [] 0 := by
  have sized := withDlen_sized hmin hmax
  refine ⟨_, execAll_syncFeed_append (execAll_header reading rfl)
    (execAll_body rfl (wireBody_length _ s sized)), ?_⟩
  rw [completeFrame_eq, receivedFrame_wireBody s sized]
  exact ⟨⟨rfl, rfl, rfl⟩, rfl, rfl, rfl, rfl, rfl⟩

/-- A clean gap and a frame: the gap's garbage is reported at the marker, then the frame is received. -/
theorem execAll_segment {gap : List Byte} {f : RawFrame} {s : State} (searching : Searching s)
    (skips : s.cfg.fillerEntersWindow = false) (clean : cleanGap gap) (hmin : 1 ≤ f.payload.length)
    (hmax : f.payload.length ≤ 65536)
    (room : s.garbageCount + (gap ++ wireFrame s.cfg.crcXorout f).length < 2 ^ s.cfg.garbageWidth) :
    ∃ t, execAll (syncFeed (gap ++ wireFrame s.cfg.crcXorout f)) s = .next t ∧
      Recovers s t [emittedFrame s.cfg.crcXorout f] (gapEvents gap) (garbageOf gap).length := by
  rw [wireFrame_eq] at room ⊢
  simp only [List.length_append, be16_length] at room
  have hgap := garbageOf_length_le gap
  have hcount := seekCount_scanned (garbageOf gap) searching
  have hscan := execAll_cleanGap searching skips clean (by omega)
  have hmarker := execAll_marker (s := scanned (garbageOf gap) s) searching.seeking
    (by rw [hcount, scanned_cfg]; omega) (by rw [hcount, scanned_garbageCount, scanned_cfg]; omega)
  obtain ⟨t, hframe, recovers⟩ :=
    execAll_frame (f := f) (s := headerOpened (scanned (garbageOf gap) s)) rfl hmin hmax
  refine ⟨t, execAll_syncFeed_append hscan (execAll_syncFeed_append hmarker hframe), ?_⟩
  exact {
    searching := recovers.searching
    cfg := recovers.cfg
    frameOut := recovers.frameOut
    syncDiag := by
      rw [recovers.syncDiag, List.append_nil, gapEvents_eq, ← hcount]
      rfl
    garbageCount := by
      rw [recovers.garbageCount, ← hcount]
      rfl
    partialAtEnd := recovers.partialAtEnd }

/-! ### A clean stream (R162) -/

/-- Gaps, each with the frame after it, as they stand in a stream. -/
def streamOf (xorout : Word16) (segs : List (List Byte × RawFrame)) : List Byte :=
  segs.flatMap fun p => p.1 ++ wireFrame xorout p.2

theorem streamOf_cons (xorout : Word16) (p : List Byte × RawFrame) (segs : List (List Byte × RawFrame)) :
    streamOf xorout (p :: segs) = p.1 ++ wireFrame xorout p.2 ++ streamOf xorout segs :=
  List.flatMap_cons

/-- Segment after segment (`execAll_segment`), what each recovers added to what came before. -/
theorem execAll_stream (segs : List (List Byte × RawFrame)) {s : State} (searching : Searching s)
    (skips : s.cfg.fillerEntersWindow = false)
    (clean : ∀ p ∈ segs, cleanGap p.1 ∧ 1 ≤ p.2.payload.length ∧ p.2.payload.length ≤ 65536)
    (room : s.garbageCount + (streamOf s.cfg.crcXorout segs).length < 2 ^ s.cfg.garbageWidth) :
    ∃ t, execAll (syncFeed (streamOf s.cfg.crcXorout segs)) s = .next t ∧
      Recovers s t (segs.map fun p => emittedFrame s.cfg.crcXorout p.2) (segs.flatMap fun p => gapEvents p.1)
        (garbageOf (segs.flatMap Prod.fst)).length := by
  induction segs generalizing s with
  | nil => exact ⟨s, rfl, Recovers.refl searching⟩
  | cons p segs ih =>
    obtain ⟨⟨hgap, hmin, hmax⟩, hrest⟩ := List.forall_mem_cons.1 clean
    rw [streamOf_cons] at room ⊢
    rw [List.length_append] at room
    obtain ⟨t, hseg, recovers⟩ := execAll_segment searching skips hgap hmin hmax (by omega)
    have hle := garbageOf_length_le p.1
    have hroom : t.garbageCount + (streamOf t.cfg.crcXorout segs).length < 2 ^ t.cfg.garbageWidth := by
      rw [recovers.cfg, recovers.garbageCount]
      rw [List.length_append] at room
      omega
    obtain ⟨u, hstream, recovers'⟩ := ih recovers.searching (recovers.cfg ▸ skips) hrest hroom
    rw [recovers.cfg] at hstream recovers'
    refine ⟨u, execAll_syncFeed_append hseg hstream, ?_⟩
    rw [List.map_cons, List.flatMap_cons, List.flatMap_cons, garbageOf_append, List.length_append]
    exact recovers.trans recovers'

theorem garbage_length_le_stream (xorout : Word16) (segs : List (List Byte × RawFrame)) :
    (garbageOf (segs.flatMap Prod.fst)).length ≤ (streamOf xorout segs).length := by
  induction segs with
  | nil => exact Nat.le_refl 0
  | cons p segs ih =>
    have hgap := garbageOf_length_le p.1
    rw [List.flatMap_cons, garbageOf_append, streamOf_cons]
    simp only [List.length_append]
    omega

/-- The garbage of a last gap is reported by `SYNC.END` (R160). -/
theorem exec_syncEnd_scanned (gap : List Byte) {s : State} (searching : Searching s)
    (room : s.garbageCount + (garbageOf gap).length < 2 ^ s.cfg.garbageWidth) :
    exec .syncEnd (scanned (garbageOf gap) s) =
      .next (enterDone
        { s with garbageCount := s.garbageCount + (garbageOf gap).length
                 syncDiag := s.syncDiag ++ gapEvents gap }) := by
  have hcount := seekCount_scanned (garbageOf gap) searching
  rw [exec_syncEnd_seeking (s := scanned (garbageOf gap) s) searching.seeking, endSeek_eq, hcount,
    gapEvents_eq, lossEvents]
  simp [enterDone, scanned, searching.seekCount, satAdd_of_lt room]

/-- Settles O18: the gaps and frames are recovered one after another (`execAll_stream`), the last gap is scanned, and
`SYNC.END` reports its garbage. -/
theorem cleanStreamIsRecovered : Obligations.CleanStreamIsRecovered := by
  intro cfg segs last skips clean cleanLast room
  have hlast := garbageOf_length_le last
  have hgarbage := garbage_length_le_stream cfg.crcXorout segs
  have hlen : (streamOf cfg.crcXorout segs).length + last.length < 2 ^ cfg.garbageWidth := by
    rw [← List.length_append]
    exact room
  obtain ⟨t, hstream, recovers⟩ := execAll_stream segs (s := { State.reset with cfg := cfg }) ⟨rfl, rfl, rfl⟩ skips
    clean (by
      rw [show State.reset.garbageCount = 0 from rfl, Nat.zero_add]
      exact Nat.lt_of_add_right_lt hlen)
  have hcfg : t.cfg = cfg := recovers.cfg
  have hcount : t.garbageCount = (garbageOf (segs.flatMap Prod.fst)).length :=
    recovers.garbageCount.trans (Nat.zero_add _)
  have hscan := execAll_cleanGap (gap := last) recovers.searching (hcfg ▸ skips) cleanLast (by rw [hcfg]; omega)
  have hend := exec_syncEnd_scanned last recovers.searching (by rw [hcfg, hcount]; omega)
  have hfeed := execAll_append_of_next [.syncEnd] (execAll_syncFeed_append hstream hscan)
  refine ⟨_, hfeed.trans (execAll_cons_of_next [] hend), recovers.frameOut, ?_, ?_, recovers.partialAtEnd,
    rfl⟩
  · exact congrArg (· ++ gapEvents last) recovers.syncDiag
  · rw [garbageOf_append, List.length_append, ← hcount]
    rfl

end Sys2Proof.Proofs.Sync
end

section
/-! PROOFS of family 42_collator: `COL.PUSH` and `COL.END` as equations, the refusals of `COL`, and the packets of a
sequence of pushes. -/

namespace Sys2Proof.Proofs.Collator

open Sys2Proof Sys2Proof.Machine
open Sys2Proof.Proofs.UnitState (runStart driftEvents openRun_eq_runStart ColStep colStep_of_execColPush swap16_length
  swap16_ne_nil)
open Sys2Proof.Proofs.Memory (swap16_cons_cons swap16_of_short length_le_one_of_short execAll_cons_of_next
  colPush_keeps residualAfterEnd_eq)

/-! ### The tests of `COL.PUSH` as arithmetic -/

theorem sized_iff (f : RawFrame) : f.sized = true ↔ f.payload.length = f.dlen.toNat + 1 := beq_iff_eq

theorem isTerminal_iff (gflags : BitVec 2) : isTerminal gflags = true ↔ gflags = 3 := beq_iff_eq

theorem isTerminal_eq_false_iff (gflags : BitVec 2) : isTerminal gflags = false ↔ gflags ≠ 3 := by
  rw [← Bool.not_eq_true, isTerminal_iff]

theorem admitsAcc_iff (cfg : Config) (acc : List Byte) (k : Nat) :
    admitsAcc cfg acc k = true ↔ ∀ m, cfg.accMax = some m → acc.length + k ≤ m := by
  cases h : cfg.accMax <;> simp [admitsAcc, h]

/-! ### What `COL.PUSH` and `COL.END` answer (R180, R186, R188) -/

/-- `COL` in `s` takes the frame `f`: no ground for a refusal holds. -/
structure Takes (s : State) (f : RawFrame) : Prop where
  notDone : s.colDone = false
  sized : f.payload.length = f.dlen.toNat + 1
  fits : ∀ m, s.cfg.accMax = some m → s.acc.length + f.payload.length ≤ m
  bounded : f.payload.length ≤ s.cfg.maxPayload

theorem exec_colPush_of_takes {s : State} {f : RawFrame} (takes : Takes s f) :
    exec (.colPush f) s = .next (collate f s) :=
  execColPush_of_admits takes.notDone ((sized_iff f).2 takes.sized) takes.bounded
    ((admitsAcc_iff _ _ _).2 takes.fits)

/-- A frame that keeps the run open (R181 to R183, R185). -/
theorem exec_colPush_fragment {s : State} {f : RawFrame} (takes : Takes s f) (more : f.gflags ≠ 3) :
    exec (.colPush f) s =
      .next { s with startSeq := runStart f s, colDiag := s.colDiag ++ driftEvents f s, lastAppid := f.appid
                     acc := s.acc ++ swap16 f.payload, singleFragment := false } := by
  rw [exec_colPush_of_takes takes, collate_of_not_terminal f s ((isTerminal_eq_false_iff _).2 more),
    openRun_eq_runStart]

/-- A terminal frame, with which the packet is emitted (R181 to R184). -/
theorem exec_colPush_terminal {s : State} {f : RawFrame} (takes : Takes s f) (last : f.gflags = 3) :
    exec (.colPush f) s =
      .next { s with startSeq := runStart f s, colDiag := s.colDiag ++ driftEvents f s, lastAppid := f.appid
                     packetOut := s.packetOut ++
                       [{ startSeq := runStart f s, endSeq := f.seq, appid := f.appid
                          payload := s.acc ++ swap16 f.payload, singleFragment := s.singleFragment }]
                     acc := [], singleFragment := true } := by
  rw [exec_colPush_of_takes takes, collate_of_terminal f s ((isTerminal_iff _).2 last), openRun_eq_runStart]

theorem exec_colPush_done {s : State} (f : RawFrame) (done : s.colDone = true) :
    exec (.colPush f) s = .refused .colDone := by
  simp [exec, execColPush, done]

theorem exec_colPush_wrongLength {s : State} {f : RawFrame} (notDone : s.colDone = false) (unsized : f.sized = false) :
    exec (.colPush f) s = .refused .badFrameLength := by
  simp [exec, execColPush, notDone, unsized]

theorem exec_colPush_beyondAccMax {s : State} {f : RawFrame} (notDone : s.colDone = false) (sized : f.sized = true)
    (full : admitsAcc s.cfg s.acc f.payload.length = false) : exec (.colPush f) s = .refused .accMaxExceeded := by
  simp [exec, execColPush, notDone, sized, full]

theorem exec_colPush_beyondMaxPayload {s : State} {f : RawFrame} (notDone : s.colDone = false) (sized : f.sized = true)
    (admitted : admitsAcc s.cfg s.acc f.payload.length = true) (long : s.cfg.maxPayload < f.payload.length) :
    exec (.colPush f) s = .refused .maxPayloadExceeded := by
  simp [exec, execColPush, admitsPayload, notDone, sized, admitted, long]

theorem exec_colEnd_notDone {s : State} (notDone : s.colDone = false) :
    exec .colEnd s =
      .next { s with residualAtEnd := residualAfterEnd s.acc s.residualAtEnd, acc := [], colDone := true } := by
  simp [exec, execColEnd, notDone]

theorem exec_colEnd_done {s : State} (done : s.colDone = true) : exec .colEnd s = .refused .colDone := by
  simp [exec, execColEnd, done]

/-! ### The fields `COL.PUSH` reads (R187) -/

theorem collate_congr {f g : RawFrame} (happid : f.appid = g.appid) (hgflags : f.gflags = g.gflags)
    (hseq : f.seq = g.seq) (hpayload : f.payload = g.payload) (s : State) : collate f s = collate g s := by
  have hopen : openRun f s = openRun g s := by rw [openRun_eq, openRun_eq, happid, hseq]
  cases terminal : isTerminal g.gflags with
  | false =>
    rw [collate_of_not_terminal g s terminal, collate_of_not_terminal f s (hgflags ▸ terminal), hopen, happid,
      hpayload]
  | true =>
    rw [collate_of_terminal g s terminal, collate_of_terminal f s (hgflags ▸ terminal), hopen, happid, hseq, hpayload]

/-- `COL.PUSH` reads `appid`, `gflags`, `seq`, `dlen` and the payload, and no other field. -/
theorem exec_colPush_congr {f g : RawFrame} (happid : f.appid = g.appid) (hgflags : f.gflags = g.gflags)
    (hseq : f.seq = g.seq) (hdlen : f.dlen = g.dlen) (hpayload : f.payload = g.payload) (s : State) :
    exec (.colPush f) s = exec (.colPush g) s := by
  have hsized : f.sized = g.sized := by rw [RawFrame.sized, RawFrame.sized, hdlen, hpayload]
  have hcollate : collate f s = collate g s := collate_congr happid hgflags hseq hpayload s
  simp only [exec, execColPush, hsized, hcollate, hpayload]

/-! ### Single operations -/

/-- Settles O19: a frame that is taken is a fragment or a terminal one. -/
theorem collatorTakesAFrame : Obligations.CollatorTakesAFrame := by
  intro s f sized bounded fits start drift
  exact ⟨exec_colPush_done f,
    fun notDone more => exec_colPush_fragment ⟨notDone, sized, fits, bounded⟩ more,
    fun notDone last => exec_colPush_terminal ⟨notDone, sized, fits, bounded⟩ last⟩

/-- Settles O21: the test of R186 fails. -/
theorem pushBeyondAccMaxRefused : Obligations.PushBeyondAccMaxRefused := by
  intro s f m notDone sized hmax beyond
  refine exec_colPush_beyondAccMax notDone ((sized_iff f).2 sized) (Bool.eq_false_iff.2 fun admitted => ?_)
  have fits : s.acc.length + f.payload.length ≤ m := (admitsAcc_iff _ _ _).1 admitted m hmax
  omega

/-- Settles O22: the length test of R180 comes before the two limits. -/
theorem pushOfTheWrongLengthRefused : Obligations.PushOfTheWrongLengthRefused := by
  intro s f notDone
  constructor
  · intro unsized
    exact exec_colPush_wrongLength notDone (Bool.eq_false_iff.2 (mt (sized_iff f).1 unsized))
  · intro sized fits long
    exact exec_colPush_beyondMaxPayload notDone ((sized_iff f).2 sized) ((admitsAcc_iff _ _ _).2 fits) long

/-- Settles O23: the five fields are none of those `COL.PUSH` reads (`exec_colPush_congr`). -/
theorem collatorIgnoresTheCrcFields : Obligations.CollatorIgnoresTheCrcFields :=
  fun s _ _ _ _ _ _ => exec_colPush_congr rfl rfl rfl rfl rfl s

/-- Settles O24. -/
theorem colEndFinishesTheCollator : Obligations.ColEndFinishesTheCollator := by
  intro s f
  constructor
  · intro notDone
    rw [exec_colEnd_notDone notDone, residualAfterEnd_eq]
  · intro done
    exact ⟨exec_colEnd_done done, exec_colPush_done f done⟩

/-! ### One packet per terminal frame (R189) -/

/-- The first operation of a sequence that runs has a next state, and the others run from there. -/
theorem execAll_cons_next {i : Instr} {is : List Instr} {s t : State} (h : execAll (i :: is) s = .next t) :
    ∃ u, exec i s = .next u ∧ execAll is u = .next t := by
  cases hi : exec i s with
  | next u => exact ⟨u, rfl, by rwa [execAll_cons_of_next is hi] at h⟩
  | fault r => cases r
  | refused r => simp [execAll, hi] at h

def packetEnd (p : LogicalPacket) : BitVec 14 × BitVec 11 := (p.endSeq, p.appid)

/-- Where the packets that the frames `fs` complete end: the sequence numbers and application ids of the terminal frames
among them, in order. -/
def terminalEnds (fs : List RawFrame) : List (BitVec 14 × BitVec 11) :=
  (fs.filter (fun f => decide (f.gflags = 3))).map (fun f => (f.seq, f.appid))

theorem terminalEnds_cons (f : RawFrame) (fs : List RawFrame) :
    terminalEnds (f :: fs) = terminalEnds [f] ++ terminalEnds fs := by
  rw [terminalEnds, terminalEnds, terminalEnds, ← List.map_append, ← List.filter_append, List.singleton_append]

/-- One push emits the packet of a terminal frame, and of any other none (R184, R185). -/
theorem exec_colPush_packets {f : RawFrame} {s t : State} (h : exec (.colPush f) s = .next t) :
    ∃ ps, t.packetOut = s.packetOut ++ ps ∧ ps.map packetEnd = terminalEnds [f] := by
  have hstep : ColStep s (.colPush f) t := colStep_of_execColPush h
  cases hstep with
  | fragment f _ _ _ more =>
    exact ⟨[], (List.append_nil _).symm, by simpa [terminalEnds] using (isTerminal_eq_false_iff _).1 more⟩
  | packet f _ _ _ last => exact ⟨[_], rfl, by simp [terminalEnds, packetEnd, (isTerminal_iff _).1 last]⟩

theorem execAll_colPush_packets (fs : List RawFrame) {s t : State} (h : execAll (fs.map .colPush) s = .next t) :
    ∃ ps, t.packetOut = s.packetOut ++ ps ∧ ps.map packetEnd = terminalEnds fs := by
  induction fs generalizing s with
  | nil =>
    cases h
    exact ⟨[], (List.append_nil _).symm, rfl⟩
  | cons f fs ih =>
    obtain ⟨u, hf, hfs⟩ := execAll_cons_next h
    obtain ⟨ps, hps, hends⟩ := exec_colPush_packets hf
    obtain ⟨qs, hqs, hends'⟩ := ih hfs
    exact ⟨ps ++ qs, by rw [hqs, hps, List.append_assoc], by
      rw [List.map_append, hends, hends', ← terminalEnds_cons]⟩

/-- Settles O26, by induction on the frames (`execAll_colPush_packets`). -/
theorem onePacketPerTerminalFrame : Obligations.OnePacketPerTerminalFrame :=
  fun fs _ _ h => execAll_colPush_packets fs h

/-! ### The swap of a concatenation (R66, R67) -/

theorem swap16_append {as : List Byte} (bs : List Byte) (even : as.length % 2 = 0) :
    swap16 (as ++ bs) = swap16 as ++ swap16 bs := by
  induction as using swap16.induct with
  | case1 b0 b1 rest ih =>
    have hrest : rest.length % 2 = 0 := by simp only [List.length_cons] at even; omega
    simp only [List.cons_append, swap16_cons_cons, ih hrest]
  | case2 rest hshort =>
    have hle := length_le_one_of_short hshort
    obtain rfl : rest = [] := List.eq_nil_of_length_eq_zero (by omega)
    rfl

/-- Only the last fragment may have an odd length, for its odd byte is copied. -/
theorem flatMap_swap16 {fs : List RawFrame} (f : RawFrame) (even : ∀ g ∈ fs, g.payload.length % 2 = 0) :
    (fs ++ [f]).flatMap (fun g => swap16 g.payload) = swap16 ((fs ++ [f]).flatMap RawFrame.payload) := by
  induction fs with
  | nil => simp
  | cons g fs ih =>
    obtain ⟨hg, hfs⟩ := List.forall_mem_cons.1 even
    simp only [List.cons_append, List.flatMap_cons]
    rw [swap16_append _ hg, ih hfs]

/-! ### A run, from any point of it (R190) -/

/-- The packet that the fragments `fs` and the terminal frame `f` complete from `s`, where a run may be in progress. -/
def runPacket (s : State) (fs : List RawFrame) (f : RawFrame) : LogicalPacket where
  startSeq := runStart (fs.head?.getD f) s
  endSeq := f.seq
  appid := f.appid
  payload := s.acc ++ (fs ++ [f]).flatMap (fun g => swap16 g.payload)
  singleFragment := s.singleFragment && decide (fs = [])

/-- The first fragment moves from the rest of the run into the state. -/
theorem runPacket_of_fragment {s u : State} {g : RawFrame} (fs : List RawFrame) (f : RawFrame)
    (hacc : u.acc = s.acc ++ swap16 g.payload) (hne : swap16 g.payload ≠ []) (hstart : u.startSeq = runStart g s)
    (hsingle : u.singleFragment = false) : runPacket u fs f = runPacket s (g :: fs) f := by
  have hopen : u.acc ≠ [] := by simp [hacc, hne]
  have hkept : runStart (fs.head?.getD f) u = runStart g s := by rw [runStart, if_neg hopen, hstart]
  simp [runPacket, hkept, hacc, hsingle]

/-- The limits let a whole run through from `s`. -/
structure TakesRun (s : State) (run : List RawFrame) : Prop where
  notDone : s.colDone = false
  fits : ∀ m, s.cfg.accMax = some m → s.acc.length + (run.flatMap RawFrame.payload).length ≤ m
  frames : ∀ g ∈ run, g.payload.length = g.dlen.toNat + 1 ∧ g.payload.length ≤ s.cfg.maxPayload

theorem TakesRun.head {s : State} {g : RawFrame} {run : List RawFrame} (takes : TakesRun s (g :: run)) : Takes s g where
  notDone := takes.notDone
  sized := (takes.frames g List.mem_cons_self).1
  fits m hm := by
    have := takes.fits m hm
    rw [List.flatMap_cons, List.length_append] at this
    omega
  bounded := (takes.frames g List.mem_cons_self).2

theorem TakesRun.tail {s u : State} {g : RawFrame} {run : List RawFrame} (takes : TakesRun s (g :: run))
    (hpush : exec (.colPush g) s = .next u) (hacc : u.acc = s.acc ++ swap16 g.payload) : TakesRun u run := by
  obtain ⟨hcfg, -, -, notDone⟩ := colPush_keeps hpush
  refine ⟨notDone, fun m hm => ?_, fun h hh => hcfg ▸ takes.frames h (List.mem_cons_of_mem g hh)⟩
  have := takes.fits m (hcfg ▸ hm)
  rw [List.flatMap_cons, List.length_append] at this
  rw [hacc, List.length_append, swap16_length]
  omega

theorem execAll_run {f : RawFrame} (last : f.gflags = 3) (fs : List RawFrame) {s : State}
    (takes : TakesRun s (fs ++ [f])) (more : ∀ g ∈ fs, g.gflags ≠ 3) :
    ∃ t, execAll ((fs ++ [f]).map .colPush) s = .next t ∧ t.acc = [] ∧ t.singleFragment = true ∧
      t.packetOut = s.packetOut ++ [runPacket s fs f] := by
  induction fs generalizing s with
  | nil =>
    refine ⟨_, execAll_cons_of_next [] (exec_colPush_terminal takes.head last), rfl, rfl, ?_⟩
    simp [runPacket]
  | cons g fs ih =>
    obtain ⟨hg, hfs⟩ := List.forall_mem_cons.1 more
    have hpush := exec_colPush_fragment takes.head hg
    obtain ⟨t, hrun, hacc, hsingle, hout⟩ := ih (takes.tail hpush rfl) hfs
    have hne := swap16_ne_nil ((sized_iff g).2 takes.head.sized)
    rw [runPacket_of_fragment fs f rfl hne rfl rfl] at hout
    exact ⟨t, (execAll_cons_of_next _ hpush).trans hrun, hacc, hsingle, hout⟩

/-- Settles O25: a run from its first frame on (`execAll_run`), and the swap of the concatenation (`flatMap_swap16`). -/
theorem runIsReassembled : Obligations.RunIsReassembled := by
  intro s fs f notDone hempty hsingle fits frames more last
  have takes : TakesRun s (fs ++ [f]) := ⟨notDone, by simpa [hempty] using fits, frames⟩
  have hpacket : runPacket s fs f =
      { startSeq := (fs.head?.getD f).seq, endSeq := f.seq, appid := f.appid
        payload := (fs ++ [f]).flatMap (fun g => swap16 g.payload), singleFragment := decide (fs = []) } := by
    simp [runPacket, runStart, hempty, hsingle]
  obtain ⟨t, hrun, hacc, hdone, hout⟩ := execAll_run last fs takes more
  exact ⟨t, hrun, hacc, hdone, hpacket ▸ hout, flatMap_swap16 f⟩

end Sys2Proof.Proofs.Collator
end

section
/-! PROOFS of family 43_codec_10plus6: the three fields of a code as numbers, the code of a value and the value of a
code in those numbers, the two round trips, and the buffer forms. -/

namespace Sys2Proof.Proofs.Codec10p6

open Sys2Proof Sys2Proof.Machine
open Sys2Proof.Proofs.UnitState (toNat_eq_ite)
open Sys2Proof.Proofs.Encoding (pack10p6_eq_append)
open Sys2Proof.Proofs.Sync (u16be_eq_ofNat extractLsb'_eq_ofNat)

/-! ### The meanings of the two scalar operations (R201, R204) -/

theorem exec_enc10p6 (s : State) (v : Word32) :
    exec (.enc10p6 v) s = .next { s with result := .code (enc10p6 v) } := rfl

theorem exec_dec10p6 (s : State) (c : Word16) :
    exec (.dec10p6 c) s = .next { s with result := .value (dec10p6 c) } := rfl

/-! ### A shift by a difference, in either direction -/

theorem mul_pow_div_pow_of_le {i k : Nat} (x : Nat) (h : i ≤ k) : x * 2 ^ k / 2 ^ i = x * 2 ^ (k - i) := by
  rw [Nat.mul_div_assoc x (Nat.pow_dvd_pow 2 h), Nat.pow_div h two_pos]

theorem mul_pow_div_pow_of_ge {i k : Nat} (x : Nat) (h : k ≤ i) : x * 2 ^ k / 2 ^ i = x / 2 ^ (i - k) := by
  conv_lhs => rw [← Nat.sub_add_cancel h, pow_add]
  exact Nat.mul_div_mul_right x _ (Nat.two_pow_pos k)

/-! ### The fields of a code as numbers (R100) -/

/-- Bits 15:6 of a code. -/
def mantField (c : Word16) : Nat := c.toNat / 64

/-- Bit 5 of a code. -/
def signField (c : Word16) : Nat := c.toNat / 32 % 2

/-- Bits 4:0 of a code. -/
def lzField (c : Word16) : Nat := c.toNat % 32

theorem toNat_eq_fields (c : Word16) : c.toNat = mantField c * 64 + signField c * 32 + lzField c := by
  unfold mantField signField lzField
  omega

theorem mantField_lt (c : Word16) : mantField c < 2 ^ 10 := by
  have := c.isLt
  unfold mantField
  omega

theorem signField_lt (c : Word16) : signField c < 2 := Nat.mod_lt _ two_pos

theorem lzField_lt (c : Word16) : lzField c < 32 := Nat.mod_lt _ (by decide)

theorem fields_of_toNat {c : Word16} {m s l : Nat} (h : c.toNat = m * 64 + s * 32 + l) (hs : s < 2) (hl : l < 32) :
    mantField c = m ∧ signField c = s ∧ lzField c = l := by
  unfold mantField signField lzField
  omega

theorem eq_of_fields {c d : Word16} (hm : mantField c = mantField d) (hs : signField c = signField d)
    (hl : lzField c = lzField d) : c = d :=
  BitVec.eq_of_toNat_eq (by rw [toNat_eq_fields c, toNat_eq_fields d, hm, hs, hl])

theorem extractLsb'_lz_toNat (c : Word16) : (c.extractLsb' 0 5).toNat = lzField c := by
  rw [extractLsb'_eq_ofNat, BitVec.toNat_ofNat, pow_zero, Nat.div_one, lzField]

theorem getLsbD_five (c : Word16) : c.getLsbD 5 = decide (signField c = 1) := by
  rw [BitVec.getLsbD, Nat.testBit_eq_decide_div_mod_eq, signField]

theorem getLsbD_mant (c : Word16) (j : Nat) : c.getLsbD (j + 6) = (mantField c).testBit j := by
  rw [mantField, show 64 = 2 ^ 6 from rfl, Nat.testBit_div_two_pow, BitVec.getLsbD]

theorem toNat_pack10p6 (mant : BitVec 10) (sign : BitVec 1) (lz : BitVec 5) :
    (pack10p6 mant sign lz).toNat = mant.toNat * 64 + sign.toNat * 32 + lz.toNat := by
  rw [pack10p6_eq_append, BitVec.toNat_append, BitVec.toNat_append, ← Nat.shiftLeft_add_eq_or_of_lt sign.isLt,
    ← Nat.shiftLeft_add_eq_or_of_lt lz.isLt, Nat.shiftLeft_eq, Nat.shiftLeft_eq]
  ring

/-- The mask of R201 and R204 keeps the mantissa field. -/
theorem and_mask_eq (x : Word16) : x &&& 0xFFC0#16 = (x.extractLsb' 6 10).setWidth 16 <<< 6 := by
  have mask : ∀ i < 16, (0xFFC0#16).getLsbD i = decide (6 ≤ i) := by decide
  apply BitVec.eq_of_getLsbD_eq
  intro i hi
  rw [BitVec.getLsbD_and, mask i hi]
  by_cases low : i < 6
  · simp [low]
  · have upper : i - 6 < 10 ∧ 6 + (i - 6) = i ∧ 6 ≤ i := by omega
    simp [low, hi, upper]

theorem toNat_and_mask (c : Word16) : (c &&& 0xFFC0#16).toNat = mantField c * 64 := by
  have := mantField_lt c
  have hfield : (c.extractLsb' 6 10).toNat = mantField c := by
    rw [extractLsb'_eq_ofNat, BitVec.toNat_ofNat]
    exact Nat.mod_eq_of_lt this
  rw [and_mask_eq, BitVec.toNat_shiftLeft, BitVec.toNat_setWidth_of_le (by decide), hfield, Nat.shiftLeft_eq]
  omega

/-! ### Aligning a magnitude (R201, R202) -/

/-- `clz32` of a magnitude, as a number (R14). -/
def leadingZeros (n : Nat) : Nat := 32 - n.size

/-- The ten bits below the leading zeros of a 32-bit magnitude. -/
def topTen (n : Nat) : Nat := n * 2 ^ leadingZeros n / 2 ^ 22

theorem clz32_eq_leadingZeros (a : Word32) : clz32 a = leadingZeros a.toNat := by
  rw [clz32, sig_eq_size]
  rfl

theorem leadingZeros_lt {n : Nat} (h : 0 < n) : leadingZeros n < 32 := by
  have := Nat.size_pos.2 h
  unfold leadingZeros
  omega

theorem aligned_lt {n : Nat} (hn : n < 2 ^ 32) : n * 2 ^ leadingZeros n < 2 ^ 32 := by
  have hsize : n.size ≤ 32 := Nat.size_le.2 hn
  calc n * 2 ^ leadingZeros n < 2 ^ n.size * 2 ^ leadingZeros n :=
        Nat.mul_lt_mul_of_pos_right n.lt_size_self (Nat.two_pow_pos _)
    _ = 2 ^ 32 := by rw [← pow_add, leadingZeros, Nat.add_sub_cancel' hsize]

theorem le_aligned {n : Nat} (h0 : 0 < n) (hn : n < 2 ^ 32) : 2 ^ 31 ≤ n * 2 ^ leadingZeros n := by
  have hsize : n.size ≤ 32 := Nat.size_le.2 hn
  have hpos : 0 < n.size := Nat.size_pos.2 h0
  have htop : 2 ^ (n.size - 1) ≤ n := Nat.lt_size.1 (Nat.sub_one_lt_of_lt hpos)
  calc 2 ^ 31 = 2 ^ (n.size - 1) * 2 ^ leadingZeros n := by
        rw [← pow_add, leadingZeros, show n.size - 1 + (32 - n.size) = 31 by omega]
    _ ≤ n * 2 ^ leadingZeros n := Nat.mul_le_mul_right _ htop

/-- Only the leading zeros align a magnitude. -/
theorem leadingZeros_of_aligned {a l : Nat} (hl : l < 32) (hmin : 2 ^ 31 ≤ a * 2 ^ l) (hmax : a * 2 ^ l < 2 ^ 32) :
    leadingZeros a = l := by
  have hsplit (k : Nat) (hk : l ≤ k) : 2 ^ k = 2 ^ (k - l) * 2 ^ l := by rw [← pow_add, Nat.sub_add_cancel hk]
  rw [hsplit 31 (by omega)] at hmin
  rw [hsplit 32 (by omega)] at hmax
  have hlow := Nat.lt_size.2 (Nat.le_of_mul_le_mul_right hmin (Nat.two_pow_pos l))
  have hhigh := Nat.size_le.2 (Nat.lt_of_mul_lt_mul_right hmax)
  unfold leadingZeros
  omega

theorem toNat_align16 (a : Word32) : (align16 a).toNat = a.toNat * 2 ^ clz32 a / 2 ^ 16 := by
  unfold align16
  split
  · next right =>
    rw [BitVec.toNat_ushiftRight, Nat.shiftRight_eq_div_pow, mul_pow_div_pow_of_ge _ right]
  · next left =>
    have haligned := aligned_lt a.isLt
    rw [← clz32_eq_leadingZeros] at haligned
    have hfits : a.toNat * 2 ^ (clz32 a - 16) < 2 ^ 32 :=
      (Nat.mul_le_mul_left _ (Nat.pow_le_pow_right two_pos (Nat.sub_le _ _))).trans_lt haligned
    rw [BitVec.toNat_shiftLeft, Nat.shiftLeft_eq, Nat.mod_eq_of_lt hfits, mul_pow_div_pow_of_le _ (by omega)]

theorem toNat_mant_align16 (a : Word32) :
    (((align16 a).setWidth 16).extractLsb' 6 10).toNat = topTen a.toNat := by
  have haligned := aligned_lt a.isLt
  rw [extractLsb'_eq_ofNat, BitVec.toNat_ofNat, BitVec.toNat_setWidth, toNat_align16, clz32_eq_leadingZeros, topTen]
  omega

/-! ### The code of a value (R201) -/

theorem natAbs_toInt_pos {v : Word32} (h : v ≠ 0#32) : 0 < v.toInt.natAbs :=
  Int.natAbs_pos.2 fun hv => h (BitVec.eq_of_toInt_eq hv)

theorem natAbs_toInt_lt (v : Word32) : v.toInt.natAbs < 2 ^ 32 := abs32_toNat v ▸ (abs32 v).isLt

theorem toNat_signBit (v : Word32) : (signBit (sgn v)).toNat = if v.toInt < 0 then 1 else 0 := by
  simp only [signBit, BitVec.toNat_ofBool, toNat_eq_ite, sgn_iff]

theorem enc10p6_eq_pack {v : Word32} (h : v ≠ 0#32) :
    enc10p6 v = pack10p6 (((align16 (abs32 v)).setWidth 16).extractLsb' 6 10) (signBit (sgn v))
      (BitVec.ofNat 5 (clz32 (abs32 v))) := by
  have hclz : clz32 (abs32 v) < 32 := by
    rw [clz32_eq_leadingZeros, abs32_toNat]
    exact leadingZeros_lt (natAbs_toInt_pos h)
  have hlz : BitVec.ofNat 16 (clz32 (abs32 v)) = (BitVec.ofNat 5 (clz32 (abs32 v))).setWidth 16 :=
    BitVec.eq_of_toNat_eq (by simp only [BitVec.toNat_ofNat, BitVec.toNat_setWidth]; omega)
  rw [enc10p6, if_neg h, and_mask_eq, hlz, pack10p6]

theorem toNat_enc10p6 {v : Word32} (h : v ≠ 0#32) :
    (enc10p6 v).toNat = topTen v.toInt.natAbs * 64 + (if v.toInt < 0 then 1 else 0) * 32 +
      leadingZeros v.toInt.natAbs := by
  have hlz := leadingZeros_lt (natAbs_toInt_pos h)
  rw [enc10p6_eq_pack h, toNat_pack10p6, toNat_mant_align16, toNat_signBit, clz32_eq_leadingZeros, abs32_toNat,
    BitVec.toNat_ofNat, Nat.mod_eq_of_lt hlz]

theorem enc10p6_zero : enc10p6 0#32 = 0#16 := rfl

theorem fields_enc10p6 {v : Word32} (h : v ≠ 0#32) :
    mantField (enc10p6 v) = topTen v.toInt.natAbs ∧
    signField (enc10p6 v) = (if v.toInt < 0 then 1 else 0) ∧
    lzField (enc10p6 v) = leadingZeros v.toInt.natAbs :=
  fields_of_toNat (toNat_enc10p6 h) (by split <;> decide) (leadingZeros_lt (natAbs_toInt_pos h))

/-- Settles O31: the fields of the code (`toNat_enc10p6`) as one number. -/
theorem enc10p6PacksMantissaSignAndLz : Obligations.Enc10p6PacksMantissaSignAndLz := by
  intro s v n lz
  have hcode : enc10p6 v = BitVec.ofNat 16
      (if v = 0 then 0 else n * 2 ^ lz / 2 ^ 22 * 64 + (if v.toInt < 0 then 32 else 0) + lz) := by
    by_cases h : v = 0#32
    · simp [h, enc10p6_zero]
    · have hsign : (if v.toInt < 0 then 32 else 0) = (if v.toInt < 0 then 1 else 0) * 32 := by split <;> rfl
      rw [if_neg (show v ≠ 0 from h), hsign, ← BitVec.setWidth_eq (enc10p6 v), ← BitVec.ofNat_toNat, toNat_enc10p6 h]
      rfl
  rw [exec_enc10p6, hcode]

/-! ### The value of a code (R204) -/

/-- The magnitude a code holds, as a number (R108). -/
def codeMagnitude (c : Word16) : Nat := mantField c * 2 ^ 22 / 2 ^ lzField c

/-- The number a code stands for. -/
def codeValue (c : Word16) : Int := if signField c = 1 then -(codeMagnitude c : Int) else codeMagnitude c

theorem codeMagnitude_eq_shift (c : Word16) :
    codeMagnitude c = if lzField c ≤ 16 then mantField c * 64 * 2 ^ (16 - lzField c)
      else mantField c * 64 / 2 ^ (lzField c - 16) := by
  rw [codeMagnitude, show mantField c * 2 ^ 22 = mantField c * 64 * 2 ^ 16 by ring]
  split
  · next left => exact mul_pow_div_pow_of_le _ left
  · next right => exact mul_pow_div_pow_of_ge _ (by omega)

theorem codeMagnitude_lt (c : Word16) : codeMagnitude c < 2 ^ 32 :=
  (Nat.div_le_self _ _).trans_lt (by have := mantField_lt c; omega)

theorem toNat_unalign16 (c : Word16) : (unalign16 c).toNat = codeMagnitude c := by
  have hlt := codeMagnitude_lt c
  have hmask : ((c &&& 0xFFC0#16).setWidth 32).toNat = mantField c * 64 := by
    rw [BitVec.toNat_setWidth_of_le (by decide), toNat_and_mask]
  rw [codeMagnitude_eq_shift] at hlt ⊢
  simp only [unalign16, extractLsb'_lz_toNat]
  split
  · next left =>
    rw [if_pos left] at hlt
    rw [BitVec.toNat_shiftLeft, hmask, Nat.shiftLeft_eq, Nat.mod_eq_of_lt hlt]
  · next right => rw [BitVec.toNat_ushiftRight, hmask, Nat.shiftRight_eq_div_pow]

theorem unalign16_eq_ofInt (c : Word16) : unalign16 c = BitVec.ofInt 32 (codeMagnitude c) := by
  rw [BitVec.ofInt_natCast, ← toNat_unalign16, BitVec.ofNat_toNat, BitVec.setWidth_eq]

theorem dec10p6_eq_ofInt (c : Word16) : dec10p6 c = BitVec.ofInt 32 (codeValue c) := by
  by_cases zero : c = 0#16
  · subst zero
    decide
  · simp only [dec10p6, if_neg zero, getLsbD_five, decide_eq_true_eq, codeValue, neg32, unalign16_eq_ofInt]
    split
    · rw [BitVec.ofInt_neg]
    · rfl

/-- Settles O32: one formula for all codes (`dec10p6_eq_ofInt`), its shift written by direction. -/
theorem dec10p6ShiftsTheMantissaBack : Obligations.Dec10p6ShiftsTheMantissaBack := by
  intro s c lz m a
  have ha : a = codeMagnitude c := (codeMagnitude_eq_shift c).symm
  rw [exec_dec10p6, dec10p6_eq_ofInt, codeValue, ← ha]
  rfl

/-- A magnitude the sign of the code can carry comes back as it is. -/
theorem toInt_dec10p6 {c : Word16} (h : codeMagnitude c < 2 ^ 31 + signField c) :
    (dec10p6 c).toInt = codeValue c := by
  have hs := signField_lt c
  rw [dec10p6_eq_ofInt]
  apply BitVec.toInt_ofInt_eq_self (by decide) <;> unfold codeValue <;> split <;> omega

/-! ### From a value to its code and back (R203, R205) -/

/-- The magnitude truncated to ten significant bits (R203). -/
def truncated (n : Nat) : Nat := n / 2 ^ (n.size - 10) * 2 ^ (n.size - 10)

theorem topTen_shifted_back {n : Nat} (hn : n < 2 ^ 32) : topTen n * 2 ^ 22 / 2 ^ leadingZeros n = truncated n := by
  have hsize : n.size ≤ 32 := Nat.size_le.2 hn
  unfold topTen truncated
  by_cases short : n.size ≤ 10
  · have hle : 22 ≤ leadingZeros n := by unfold leadingZeros; omega
    rw [mul_pow_div_pow_of_le n hle, mul_assoc, ← pow_add, Nat.sub_add_cancel hle,
      Nat.mul_div_cancel _ (Nat.two_pow_pos _), Nat.sub_eq_zero_of_le short]
    simp
  · have hle : leadingZeros n ≤ 22 := by unfold leadingZeros; omega
    have hk : 22 - leadingZeros n = n.size - 10 := by unfold leadingZeros; omega
    rw [mul_pow_div_pow_of_ge n hle, mul_pow_div_pow_of_le _ hle, hk]

theorem truncated_le (n : Nat) : truncated n ≤ n := Nat.div_mul_le_self n _

theorem sub_truncated (n : Nat) : n - truncated n = n % 2 ^ (n.size - 10) := by
  have := Nat.div_add_mod' n (2 ^ (n.size - 10))
  unfold truncated
  omega

theorem sub_truncated_lt (n : Nat) : n - truncated n < 2 ^ (n.size - 10) := by
  rw [sub_truncated]
  exact Nat.mod_lt _ (Nat.two_pow_pos _)

/-- The relative error of R205. -/
theorem sub_truncated_relative {n : Nat} (h : 0 < n) : (n - truncated n) * 2 ^ 9 < n := by
  by_cases short : n.size ≤ 10
  · rw [sub_truncated, Nat.sub_eq_zero_of_le short, pow_zero, Nat.mod_one, Nat.zero_mul]
    exact h
  · have htop : 2 ^ (n.size - 1) ≤ n := Nat.lt_size.1 (by omega)
    calc (n - truncated n) * 2 ^ 9 < 2 ^ (n.size - 10) * 2 ^ 9 :=
          Nat.mul_lt_mul_of_pos_right (sub_truncated_lt n) (Nat.two_pow_pos 9)
      _ = 2 ^ (n.size - 1) := by rw [← pow_add, show n.size - 10 + 9 = n.size - 1 by omega]
      _ ≤ n := htop

theorem codeMagnitude_enc10p6 {v : Word32} (h : v ≠ 0#32) :
    codeMagnitude (enc10p6 v) = truncated v.toInt.natAbs := by
  obtain ⟨hmant, -, hlz⟩ := fields_enc10p6 h
  rw [codeMagnitude, hmant, hlz, topTen_shifted_back (natAbs_toInt_lt v)]

theorem dec10p6_enc10p6 (v : Word32) :
    (dec10p6 (enc10p6 v)).toInt = v.toInt.sign * (truncated v.toInt.natAbs : Nat) := by
  by_cases h : v = 0#32
  · subst h
    decide
  · obtain ⟨-, hsign, -⟩ := fields_enc10p6 h
    have hmag := codeMagnitude_enc10p6 h
    have hle := truncated_le v.toInt.natAbs
    have hpos := natAbs_toInt_pos h
    have hmin := v.le_toInt
    have hmax := v.toInt_lt
    by_cases neg : v.toInt < 0
    · rw [if_pos neg] at hsign
      rw [toInt_dec10p6 (by omega), codeValue, if_pos hsign, hmag, Int.sign_eq_neg_one_of_neg neg, neg_one_mul]
    · rw [if_neg neg] at hsign
      rw [toInt_dec10p6 (by omega), codeValue, if_neg (by omega), hmag, Int.sign_eq_one_of_pos (by omega), one_mul]

theorem natAbs_dec10p6_enc10p6 (v : Word32) :
    (dec10p6 (enc10p6 v)).toInt.natAbs = truncated v.toInt.natAbs := by
  by_cases h : v = 0#32
  · subst h
    decide
  · rw [dec10p6_enc10p6, Int.natAbs_mul, Int.natAbs_natCast,
      Int.natAbs_sign_of_ne_zero (Int.natAbs_pos.1 (natAbs_toInt_pos h)), one_mul]

/-- Settles O33: what comes back is the truncated magnitude (`topTen_shifted_back`) under the sign of the value, and
the error is what the truncation drops. -/
theorem codec10p6KeepsTenBits : Obligations.Codec10p6KeepsTenBits := by
  intro v n k d
  have hd : d.natAbs = truncated n := natAbs_dec10p6_enc10p6 v
  refine ⟨dec10p6_enc10p6 v, ?_, ?_, fun h => ?_⟩ <;> rw [hd]
  · exact truncated_le n
  · exact sub_truncated_lt n
  · exact sub_truncated_relative (natAbs_toInt_pos h)

/-! ### From a code to its value and back (R101, R206) -/

theorem pow_dvd_iff_testBit (m k : Nat) : 2 ^ k ∣ m ↔ ∀ j < k, m.testBit j = false := by
  constructor
  · rintro ⟨q, rfl⟩ j hj
    simp [Nat.testBit_two_pow_mul, Nat.not_le.2 hj]
  · intro h
    apply Nat.dvd_of_mod_eq_zero
    apply Nat.eq_of_testBit_eq
    intro j
    rw [Nat.testBit_mod_two_pow, Nat.zero_testBit]
    by_cases hj : j < k <;> simp [hj, h]

/-- The bits of R101 that a code with many leading zeros leaves clear: shifting its mantissa back drops nothing. -/
theorem clear_low_bits_iff (c : Word16) :
    (23 ≤ lzField c → ∀ j, 6 ≤ j → j ≤ lzField c - 17 → c.getLsbD j = false) ↔
      2 ^ lzField c ∣ mantField c * 2 ^ 22 := by
  by_cases many : 23 ≤ lzField c
  · have hpow : 2 ^ lzField c = 2 ^ (lzField c - 22) * 2 ^ 22 := by rw [← pow_add, Nat.sub_add_cancel (by omega)]
    rw [hpow, Nat.mul_dvd_mul_iff_right (Nat.two_pow_pos 22), pow_dvd_iff_testBit]
    refine ⟨fun h j hj => ?_, fun h _ j hmin hmax => ?_⟩
    · rw [← getLsbD_mant]
      exact h many (j + 6) (by omega) (by omega)
    · have := h (j - 6) (by omega)
      rwa [← getLsbD_mant, Nat.sub_add_cancel hmin] at this
  · exact iff_of_true (fun h => absurd h many)
      (Dvd.dvd.mul_left (Nat.pow_dvd_pow 2 (by omega)) (mantField c))

theorem getLsbD_fifteen_iff (c : Word16) : c.getLsbD 15 = true ↔ 2 ^ 9 ≤ mantField c := by
  have := mantField_lt c
  rw [getLsbD_mant c 9, Nat.testBit_eq_decide_div_mod_eq, decide_eq_true_eq]
  omega

/-- R101 in the fields of the code. -/
structure CanonicalFields (c : Word16) : Prop where
  aligned : 2 ^ 9 ≤ mantField c
  mostNegative : lzField c = 0 → c = 0x8020#16
  exact : 2 ^ lzField c ∣ mantField c * 2 ^ 22

theorem canonical10p6_iff (c : Word16) : canonical10p6 c ↔ c = 0#16 ∨ CanonicalFields c := by
  rw [canonical10p6, extractLsb'_lz_toNat, clear_low_bits_iff, getLsbD_fifteen_iff]
  exact or_congr_right ⟨fun ⟨ha, hm, he⟩ => ⟨ha, hm, he⟩, fun ⟨ha, hm, he⟩ => ⟨ha, hm, he⟩⟩

theorem dvd_topTen (n : Nat) : 2 ^ leadingZeros n ∣ topTen n * 2 ^ 22 := by
  by_cases few : leadingZeros n ≤ 22
  · exact Dvd.dvd.mul_left (Nat.pow_dvd_pow 2 few) _
  · have hle : 22 ≤ leadingZeros n := by omega
    rw [topTen, mul_pow_div_pow_of_le n hle, mul_assoc, ← pow_add, Nat.sub_add_cancel hle]
    exact Dvd.intro_left n rfl

/-- Every code `ENC10P6` produces is canonical (R101). -/
theorem canonical10p6_enc10p6 (v : Word32) : canonical10p6 (enc10p6 v) := by
  rw [canonical10p6_iff]
  by_cases h : v = 0#32
  · exact .inl (h ▸ enc10p6_zero)
  · obtain ⟨hmant, hsign, hlz⟩ := fields_enc10p6 h
    have hmin := le_aligned (natAbs_toInt_pos h) (natAbs_toInt_lt v)
    refine .inr ⟨?_, fun zero => ?_, ?_⟩
    · rw [hmant, topTen]
      omega
    · have hv : v = 0x80000000#32 := by
        rw [hlz] at zero
        rw [zero, pow_zero, mul_one] at hmin
        have := v.le_toInt
        have := v.toInt_lt
        exact BitVec.eq_of_toInt_eq (by rw [show (0x80000000#32).toInt = -2 ^ 31 by decide]; omega)
      subst hv
      decide
    · rw [hmant, hlz]
      exact dvd_topTen _

/-- Shifting the mantissa of a canonical code back and aligning it again gives the mantissa. -/
theorem codeMagnitude_aligned {c : Word16} (canonical : CanonicalFields c) :
    codeMagnitude c * 2 ^ lzField c = mantField c * 2 ^ 22 :=
  Nat.div_mul_cancel canonical.exact

theorem leadingZeros_codeMagnitude {c : Word16} (canonical : CanonicalFields c) :
    leadingZeros (codeMagnitude c) = lzField c := by
  have haligned := codeMagnitude_aligned canonical
  have hmin := canonical.aligned
  have hmax := mantField_lt c
  exact leadingZeros_of_aligned (lzField_lt c) (by omega) (by omega)

theorem topTen_codeMagnitude {c : Word16} (canonical : CanonicalFields c) :
    topTen (codeMagnitude c) = mantField c := by
  rw [topTen, leadingZeros_codeMagnitude canonical, codeMagnitude_aligned canonical,
    Nat.mul_div_cancel _ (Nat.two_pow_pos 22)]

theorem codeMagnitude_pos {c : Word16} (canonical : CanonicalFields c) : 0 < codeMagnitude c := by
  have haligned := codeMagnitude_aligned canonical
  have hmin := canonical.aligned
  exact Nat.pos_of_mul_pos_right (by omega : 0 < codeMagnitude c * 2 ^ lzField c)

/-- The sign of a canonical code can carry its magnitude: only `0x8020` has no leading zero. -/
theorem codeMagnitude_lt_of_canonical {c : Word16} (canonical : CanonicalFields c) :
    codeMagnitude c < 2 ^ 31 + signField c := by
  by_cases zero : lzField c = 0
  · rw [canonical.mostNegative zero]
    decide
  · have haligned := codeMagnitude_aligned canonical
    have hmax := mantField_lt c
    have htwo : 2 ≤ 2 ^ lzField c := Nat.le_self_pow zero 2
    have := Nat.mul_le_mul_left (codeMagnitude c) htwo
    omega

theorem enc10p6_dec10p6 {c : Word16} (canonical : CanonicalFields c) : enc10p6 (dec10p6 c) = c := by
  have hs := signField_lt c
  have hpos := codeMagnitude_pos canonical
  have hvalue : (dec10p6 c).toInt = codeValue c := toInt_dec10p6 (codeMagnitude_lt_of_canonical canonical)
  have hparts : (codeValue c).natAbs = codeMagnitude c ∧ (if codeValue c < 0 then 1 else 0) = signField c := by
    unfold codeValue
    split <;> split <;> omega
  obtain ⟨habs, hneg⟩ := hparts
  have hne : dec10p6 c ≠ 0#32 := by
    intro zero
    rw [zero, BitVec.toInt_zero] at hvalue
    omega
  obtain ⟨hmant, hsign, hlz⟩ := fields_enc10p6 hne
  rw [hvalue] at hmant hsign hlz
  rw [habs] at hmant hlz
  exact eq_of_fields (hmant.trans (topTen_codeMagnitude canonical)) (hsign.trans hneg)
    (hlz.trans (leadingZeros_codeMagnitude canonical))

/-- Settles O34: the encoder answers canonical codes only, and on those the fields come back one by one. -/
theorem codec10p6FixesCanonicalCodes : Obligations.Codec10p6FixesCanonicalCodes := by
  intro c
  constructor
  · intro fixed
    exact fixed ▸ canonical10p6_enc10p6 (dec10p6 c)
  · intro canonical
    rcases (canonical10p6_iff c).1 canonical with rfl | fields
    · decide
    · exact enc10p6_dec10p6 fields

/-! ### The buffer forms (R208, R209) -/

theorem admitsCount_iff (cfg : Config) (n : Nat) :
    admitsCount cfg n = true ↔ ∀ m, cfg.nMax = some m → n ≤ m := by
  cases h : cfg.nMax <;> simp [admitsCount, h]

/-- The two bytes of a codeword as numbers, in the order of R69. -/
theorem bufWord_eq (order : WordOrder) (w : Word16) :
    bufWord order w =
      if order = .little then [BitVec.ofNat 8 w.toNat, BitVec.ofNat 8 (w.toNat / 256)]
      else [BitVec.ofNat 8 (w.toNat / 256), BitVec.ofNat 8 w.toNat] := by
  cases order <;> simp [bufWord, le16, be16, extractLsb'_eq_ofNat]

/-- The codeword of two bytes as a number, in the order of R69. -/
theorem readBufWord_eq (order : WordOrder) (b0 b1 : Byte) :
    readBufWord order b0 b1 =
      BitVec.ofNat 16 (if order = .little then b1.toNat * 256 + b0.toNat else b0.toNat * 256 + b1.toNat) := by
  cases order with
  | little => exact u16be_eq_ofNat b1 b0
  | big => exact u16be_eq_ofNat b0 b1

theorem exec_enc10p6Buf {s : State} {a : List Word32} (admitted : ∀ m, s.cfg.nMax = some m → a.length ≤ m) :
    exec (.enc10p6Buf a) s =
      .next { s with result := .bytes (a.flatMap fun v => bufWord s.cfg.bufWordOrder (enc10p6 v)) } :=
  arrayOp_of_admits _ ((admitsCount_iff _ _).2 admitted)

theorem exec_dec10p6Buf {s : State} {n : Nat} (buf : List Byte) (admitted : ∀ m, s.cfg.nMax = some m → n ≤ m) :
    exec (.dec10p6Buf buf n) s =
      .next { s with result := arrayResult (dec10p6Buf s.cfg.bufWordOrder buf n) } :=
  arrayOp_of_admits _ ((admitsCount_iff _ _).2 admitted)

/-- Settles O35: the bytes of each codeword as numbers (`bufWord_eq`). -/
theorem enc10p6BufWritesEachCode : Obligations.Enc10p6BufWritesEachCode := by
  intro s a admitted
  simp only [exec_enc10p6Buf admitted, bufWord_eq]

theorem dec10p6Codes_eq_map (order : WordOrder) (n : Nat) {buf : List Byte} (h : 2 * n ≤ buf.length) :
    dec10p6Codes order n buf =
      (List.range n).map fun i => dec10p6 (readBufWord order (buf.getD (2 * i) 0) (buf.getD (2 * i + 1) 0)) := by
  induction n generalizing buf with
  | zero => simp [dec10p6Codes]
  | succ n ih =>
    match buf, h with
    | b0 :: b1 :: rest, h =>
      have hrest : 2 * n ≤ rest.length := by simp only [List.length_cons] at h; omega
      rw [dec10p6Codes, ih hrest, List.range_succ_eq_map, List.map_cons, List.map_map]
      rfl

theorem dec10p6Buf_of_short {order : WordOrder} {buf : List Byte} {n : Nat} (h : buf.length < 2 * n) :
    dec10p6Buf order buf n = .error { needed := 2 * n, avail := buf.length } := if_pos h

theorem dec10p6Buf_of_long {order : WordOrder} {buf : List Byte} {n : Nat} (h : 2 * n ≤ buf.length) :
    dec10p6Buf order buf n = .ok (dec10p6Codes order n buf) := if_neg (Nat.not_lt.2 h)

/-- Settles O36: the length check of R209, and the loop over the codes by index (`dec10p6Codes_eq_map`). -/
theorem dec10p6BufReadsEachCode : Obligations.Dec10p6BufReadsEachCode := by
  intro s buf n admitted
  rw [exec_dec10p6Buf buf admitted]
  constructor
  · intro short
    rw [dec10p6Buf_of_short short, arrayResult]
  · intro long
    rw [dec10p6Buf_of_long long, arrayResult, dec10p6Codes_eq_map _ n long]
    simp only [readBufWord_eq]

end Sys2Proof.Proofs.Codec10p6
end

section
/-! PROOFS of family 44_codec_4into5: a lane as mantissa, sign and shift, the lane of a value and the value of a lane in
those numbers, the two round trips, and the buffer forms. -/

namespace Sys2Proof.Proofs.Codec4to5

open Sys2Proof Sys2Proof.Machine
open Sys2Proof.Proofs.UnitState (toNat_eq_ite)
open Sys2Proof.Proofs.Encoding (pack4to5_eq_append packNibbles_eq_append nibble_packNibbles packNibbles_nibble)
open Sys2Proof.Proofs.Sync (extractLsb'_eq_ofNat)
open Sys2Proof.Proofs.Codec10p6 (toNat_signBit natAbs_toInt_lt admitsCount_iff bufWord_eq readBufWord_eq)

/-! ### The meanings of the two scalar operations (R221, R224) -/

theorem exec_enc4to5 (s : State) (v0 v1 v2 v3 : Word32) :
    exec (.enc4to5 v0 v1 v2 v3) s =
      .next { s with
        result := .words (enc4to5W0 v0 v1 v2 v3) (laneWord v0) (laneWord v1) (laneWord v2) (laneWord v3) } := rfl

theorem exec_dec4to5 (s : State) (w0 w1 w2 w3 w4 : Word16) :
    exec (.dec4to5 w0 w1 w2 w3 w4) s =
      .next { s with
        result := .values (decLane (nibble w0 0) w1) (decLane (nibble w0 1) w2) (decLane (nibble w0 2) w3)
          (decLane (nibble w0 3) w4) } := rfl

/-! ### The fields of a lane as numbers (R103, R109) -/

/-- Bits 13:0 of a lane's word. -/
def laneMant (w : Word16) : Nat := w.toNat % 2 ^ 14

/-- Bit 15 of a lane's word. -/
def laneSign (w : Word16) : Nat := w.toNat / 2 ^ 15

theorem laneMant_lt (w : Word16) : laneMant w < 2 ^ 14 := Nat.mod_lt _ (Nat.two_pow_pos 14)

theorem laneSign_lt (w : Word16) : laneSign w < 2 := by
  have := w.isLt
  unfold laneSign
  omega

theorem extractLsb'_mant_toNat (w : Word16) : (w.extractLsb' 0 14).toNat = laneMant w := by
  rw [extractLsb'_eq_ofNat, BitVec.toNat_ofNat, pow_zero, Nat.div_one, laneMant]

theorem extractLsb'_mant_eq_iff (w : Word16) (m : BitVec 14) : w.extractLsb' 0 14 = m ↔ laneMant w = m.toNat := by
  rw [← BitVec.toNat_inj, extractLsb'_mant_toNat]

theorem getLsbD_sign (w : Word16) : w.getLsbD 15 = decide (laneSign w = 1) := by
  have := laneSign_lt w
  rw [BitVec.getLsbD, Nat.testBit_eq_decide_div_mod_eq, ← laneSign, Nat.mod_eq_of_lt this]

theorem toNat_getLsbD_flag (w : Word16) : (w.getLsbD 14).toNat = w.toNat / 2 ^ 14 % 2 := by
  rw [BitVec.getLsbD, Nat.toNat_testBit]

theorem declaredShift_eq (nib : BitVec 4) (w : Word16) :
    declaredShift nib w = nib.toNat + 16 * (w.toNat / 2 ^ 14 % 2) := by
  rw [declaredShift, toNat_getLsbD_flag]

theorem nibble_toNat (w : Word16) (i : Nat) : (nibble w i).toNat = w.toNat / 2 ^ (4 * i) % 16 := by
  rw [nibble, extractLsb'_eq_ofNat, BitVec.toNat_ofNat]

theorem fields_of_toNat {w : Word16} {m f s : Nat} (h : w.toNat = m + 2 ^ 14 * f + 2 ^ 15 * s) (hm : m < 2 ^ 14)
    (hf : f < 2) : laneMant w = m ∧ w.toNat / 2 ^ 14 % 2 = f ∧ laneSign w = s := by
  unfold laneMant laneSign
  omega

/-- Mantissa, sign and declared shift determine the nibble and the word of a lane. -/
theorem lane_eq_of_fields {nib nib' : BitVec 4} {w w' : Word16} (hmant : laneMant w = laneMant w')
    (hsign : laneSign w = laneSign w') (hshift : declaredShift nib w = declaredShift nib' w') :
    nib = nib' ∧ w = w' := by
  have := nib.isLt
  have := nib'.isLt
  rw [declaredShift_eq, declaredShift_eq] at hshift
  unfold laneMant at hmant
  unfold laneSign at hsign
  constructor <;> apply BitVec.eq_of_toNat_eq <;> omega

/-! ### The packed words as numbers (R102, R103) -/

theorem toNat_pack4to5 (sign inplace : BitVec 1) (mant : BitVec 14) :
    (pack4to5 sign inplace mant).toNat = mant.toNat + 2 ^ 14 * inplace.toNat + 2 ^ 15 * sign.toNat := by
  rw [pack4to5_eq_append, BitVec.toNat_append, BitVec.toNat_append, ← Nat.shiftLeft_add_eq_or_of_lt inplace.isLt,
    ← Nat.shiftLeft_add_eq_or_of_lt mant.isLt, Nat.shiftLeft_eq, Nat.shiftLeft_eq]
  ring

theorem toNat_packNibbles (n0 n1 n2 n3 : BitVec 4) :
    (packNibbles n0 n1 n2 n3).toNat = n0.toNat + 2 ^ 4 * n1.toNat + 2 ^ 8 * n2.toNat + 2 ^ 12 * n3.toNat := by
  rw [packNibbles_eq_append, BitVec.toNat_append, BitVec.toNat_append, BitVec.toNat_append,
    ← Nat.shiftLeft_add_eq_or_of_lt n2.isLt, ← Nat.shiftLeft_add_eq_or_of_lt n1.isLt,
    ← Nat.shiftLeft_add_eq_or_of_lt n0.isLt, Nat.shiftLeft_eq, Nat.shiftLeft_eq, Nat.shiftLeft_eq]
  ring

/-! ### The lane of a value (R221) -/

/-- The significant bits of a magnitude beyond the 14 a mantissa holds: the shift of R221, as a number. -/
def excessBits (n : Nat) : Nat := n.size - 14

/-- The top 14 significant bits of a magnitude. -/
def topFourteen (n : Nat) : Nat := n / 2 ^ excessBits n

theorem topFourteen_lt (n : Nat) : topFourteen n < 2 ^ 14 := by
  refine Nat.div_lt_of_lt_mul (n.lt_size_self.trans_le ?_)
  rw [← pow_add]
  exact Nat.pow_le_pow_right two_pos (by unfold excessBits; omega)

/-- A shifted magnitude fills its mantissa. -/
theorem le_topFourteen {n : Nat} (h : 1 ≤ excessBits n) : 2 ^ 13 ≤ topFourteen n := by
  unfold excessBits at h
  have htop : 2 ^ (n.size - 1) ≤ n := Nat.lt_size.1 (by omega)
  rw [topFourteen, Nat.le_div_iff_mul_le (Nat.two_pow_pos _), ← pow_add]
  rwa [show 13 + excessBits n = n.size - 1 by unfold excessBits; omega]

/-- A mantissa that its shift fills, or that is not shifted, keeps that shift. -/
theorem excessBits_mul_pow {m k : Nat} (hm : m < 2 ^ 14) (htop : 1 ≤ k → 2 ^ 13 ≤ m) : excessBits (m * 2 ^ k) = k := by
  have hsize : m.size ≤ 14 := Nat.size_le.2 hm
  by_cases unshifted : k = 0
  · rw [unshifted, pow_zero, mul_one, excessBits]
    omega
  · have hmin := htop (by omega)
    have hfull : 13 < m.size := Nat.lt_size.2 hmin
    rw [excessBits, ← Nat.shiftLeft_eq, Nat.size_shiftLeft (by omega)]
    omega

theorem excessBits_le (v : Word32) : excessBits v.toInt.natAbs ≤ 18 := by
  have : v.toInt.natAbs.size ≤ 32 := Nat.size_le.2 (natAbs_toInt_lt v)
  unfold excessBits
  omega

theorem laneShift_eq (v : Word32) : laneShift v = excessBits v.toInt.natAbs := by
  have : v.toInt.natAbs.size ≤ 32 := Nat.size_le.2 (natAbs_toInt_lt v)
  rw [laneShift, clz32, sig_eq_size, abs32_toNat, Config.valueWidth, excessBits]
  omega

theorem toNat_laneNibble (v : Word32) :
    (laneNibble v).toNat =
      if 16 ≤ excessBits v.toInt.natAbs then excessBits v.toInt.natAbs - 16 else excessBits v.toInt.natAbs := by
  have := excessBits_le v
  rw [laneNibble, laneShift_eq, BitVec.toNat_ofNat]
  split <;> omega

theorem toNat_laneWord (v : Word32) :
    (laneWord v).toNat = topFourteen v.toInt.natAbs + 2 ^ 14 * (if 16 ≤ excessBits v.toInt.natAbs then 1 else 0) +
      2 ^ 15 * (if v.toInt < 0 then 1 else 0) := by
  have hmant : ((abs32 v >>> excessBits v.toInt.natAbs).setWidth 14).toNat = topFourteen v.toInt.natAbs := by
    rw [BitVec.toNat_setWidth, BitVec.toNat_ushiftRight, Nat.shiftRight_eq_div_pow, abs32_toNat]
    exact Nat.mod_eq_of_lt (topFourteen_lt _)
  rw [laneWord, toNat_pack4to5, laneShift_eq, hmant, toNat_signBit, BitVec.toNat_ofBool, toNat_eq_ite]
  simp only [decide_eq_true_eq, ge_iff_le]

theorem fields_encodedLane (v : Word32) :
    laneMant (laneWord v) = topFourteen v.toInt.natAbs ∧ laneSign (laneWord v) = (if v.toInt < 0 then 1 else 0) ∧
      declaredShift (laneNibble v) (laneWord v) = excessBits v.toInt.natAbs := by
  obtain ⟨hmant, hflag, hsign⟩ := fields_of_toNat (toNat_laneWord v) (topFourteen_lt _) (by split <;> decide)
  refine ⟨hmant, hsign, ?_⟩
  rw [declaredShift_eq, hflag, toNat_laneNibble]
  split <;> omega

theorem laneWord_eq_ofNat (v : Word32) :
    laneWord v = BitVec.ofNat 16 (topFourteen v.toInt.natAbs +
      (if 16 ≤ excessBits v.toInt.natAbs then 2 ^ 14 else 0) + (if v.toInt < 0 then 2 ^ 15 else 0)) := by
  rw [← BitVec.setWidth_eq (laneWord v), ← BitVec.ofNat_toNat, toNat_laneWord, mul_ite, mul_ite]
  rfl

theorem enc4to5W0_eq_ofNat (v0 v1 v2 v3 : Word32) :
    enc4to5W0 v0 v1 v2 v3 = BitVec.ofNat 16 ((laneNibble v0).toNat + 2 ^ 4 * (laneNibble v1).toNat +
      2 ^ 8 * (laneNibble v2).toNat + 2 ^ 12 * (laneNibble v3).toNat) := by
  rw [← toNat_packNibbles, BitVec.ofNat_toNat, BitVec.setWidth_eq, enc4to5W0]

/-- Settles O37: the nibble and the word of a lane as numbers, packed. -/
theorem enc4to5PacksFourLanes : Obligations.Enc4to5PacksFourLanes := by
  intro s v0 v1 v2 v3 mag sh nib word w0
  have hw0 : enc4to5W0 v0 v1 v2 v3 = w0 := by
    rw [enc4to5W0_eq_ofNat]
    simp only [toNat_laneNibble]
    rfl
  rw [exec_enc4to5, hw0]
  simp only [laneWord_eq_ofNat]
  rfl

/-! ### The value of a lane (R224) -/

/-- The magnitude a lane stands for, before it is cut to 32 bits (R109). -/
def laneMagnitude (nib : BitVec 4) (w : Word16) : Nat := laneMant w * 2 ^ declaredShift nib w

/-- The number a lane stands for. -/
def laneValue (nib : BitVec 4) (w : Word16) : Int :=
  if laneSign w = 1 then -(laneMagnitude nib w : Int) else laneMagnitude nib w

theorem shiftedMant_eq_ofInt (nib : BitVec 4) (w : Word16) :
    shl32 ((w.extractLsb' 0 14).setWidth 32) (declaredShift nib w) = BitVec.ofInt 32 (laneMagnitude nib w) := by
  apply BitVec.eq_of_toNat_eq
  rw [shl32, BitVec.toNat_shiftLeft, BitVec.toNat_setWidth_of_le (by decide), extractLsb'_mant_toNat, Nat.shiftLeft_eq,
    BitVec.ofInt_natCast, BitVec.toNat_ofNat, laneMagnitude]

theorem decLane_eq_ofInt (nib : BitVec 4) (w : Word16) : decLane nib w = BitVec.ofInt 32 (laneValue nib w) := by
  have hshift : nib.toNat + 16 * (w.getLsbD 14).toNat = declaredShift nib w := rfl
  simp only [decLane, hshift, shiftedMant_eq_ofInt, getLsbD_sign, decide_eq_true_eq, laneValue, neg32]
  split
  · rw [BitVec.ofInt_neg]
  · rfl

/-- Settles O38: one formula for all lanes (`decLane_eq_ofInt`), its fields written as arithmetic. -/
theorem dec4to5ShiftsEachLane : Obligations.Dec4to5ShiftsEachLane := by
  intro s w0 w1 w2 w3 w4 lane
  have hlane (i : Nat) (w : Word16) : decLane (nibble w0 i) w = lane i w := by
    rw [decLane_eq_ofInt, laneValue, laneMagnitude, declaredShift_eq, nibble_toNat]
    rfl
  rw [exec_dec4to5, hlane, hlane, hlane, hlane]

/-- A magnitude the sign of the lane can carry comes back as it is. -/
theorem toInt_decLane {nib : BitVec 4} {w : Word16} (h : laneMagnitude nib w < 2 ^ 31 + laneSign w) :
    (decLane nib w).toInt = laneValue nib w := by
  have := laneSign_lt w
  rw [decLane_eq_ofInt]
  apply BitVec.toInt_ofInt_eq_self (by decide) <;> unfold laneValue <;> split <;> omega

/-! ### From a value to its lane and back (R223, R225) -/

theorem laneMagnitude_encodedLane (v : Word32) :
    laneMagnitude (laneNibble v) (laneWord v) =
      topFourteen v.toInt.natAbs * 2 ^ excessBits v.toInt.natAbs := by
  obtain ⟨hmant, -, hshift⟩ := fields_encodedLane v
  rw [laneMagnitude, hmant, hshift]

/-- The value that comes back has the sign and the top 14 significant bits of the one sent (R223). -/
theorem decLane_encodedLane (v : Word32) :
    (decLane (laneNibble v) (laneWord v)).toInt =
      v.toInt.sign * (topFourteen v.toInt.natAbs * 2 ^ excessBits v.toInt.natAbs : Nat) := by
  obtain ⟨-, hsign, -⟩ := fields_encodedLane v
  have hmag := laneMagnitude_encodedLane v
  have hle : topFourteen v.toInt.natAbs * 2 ^ excessBits v.toInt.natAbs ≤ v.toInt.natAbs := Nat.div_mul_le_self _ _
  have hmin := v.le_toInt
  have hmax := v.toInt_lt
  rcases lt_trichotomy v.toInt 0 with neg | zero | pos
  · rw [if_pos neg] at hsign
    rw [toInt_decLane (by omega), laneValue, if_pos hsign, hmag, Int.sign_eq_neg_one_of_neg neg, neg_one_mul]
  · rw [if_neg (by omega)] at hsign
    rw [toInt_decLane (by omega), laneValue, if_neg (by omega), hmag, zero]
    rfl
  · rw [if_neg (by omega)] at hsign
    rw [toInt_decLane (by omega), laneValue, if_neg (by omega), hmag, Int.sign_eq_one_of_pos pos, one_mul]

/-! ### From a lane to its value and back (R104, R225) -/

theorem getLsbD_thirteen_iff (w : Word16) : w.getLsbD 13 = true ↔ 2 ^ 13 ≤ laneMant w := by
  rw [BitVec.getLsbD, Nat.testBit_eq_decide_div_mod_eq, decide_eq_true_eq, laneMant]
  omega

/-- R104 in the fields of the lane. -/
structure CanonicalFields (nib : BitVec 4) (w : Word16) : Prop where
  shift_le : declaredShift nib w ≤ 18
  filled : 1 ≤ declaredShift nib w → 2 ^ 13 ≤ laneMant w
  zero : laneMant w = 0 → laneSign w = 0 ∧ declaredShift nib w = 0
  mostNegative : declaredShift nib w = 18 → laneSign w = 1 ∧ laneMant w = 2 ^ 13

theorem canonicalLane_iff (nib : BitVec 4) (w : Word16) : canonicalLane nib w ↔ CanonicalFields nib w := by
  have hpositive : ¬ laneSign w = 1 ↔ laneSign w = 0 := by
    have := laneSign_lt w
    omega
  rw [canonicalLane, getLsbD_thirteen_iff, extractLsb'_mant_eq_iff, extractLsb'_mant_eq_iff, getLsbD_sign,
    decide_eq_true_eq, decide_eq_false_iff_not, hpositive]
  exact ⟨fun ⟨hle, hfilled, hzero, hmost⟩ => ⟨hle, hfilled, hzero, hmost⟩,
    fun ⟨hle, hfilled, hzero, hmost⟩ => ⟨hle, hfilled, hzero, hmost⟩⟩

/-- Every lane `ENC4TO5` produces is canonical (R104). -/
theorem canonicalFields_encodedLane (v : Word32) : CanonicalFields (laneNibble v) (laneWord v) := by
  obtain ⟨hmant, hsign, hshift⟩ := fields_encodedLane v
  refine ⟨?_, fun shifted => ?_, fun empty => ?_, fun most => ?_⟩
  · rw [hshift]
    exact excessBits_le v
  · rw [hmant]
    exact le_topFourteen (hshift ▸ shifted)
  · rw [hmant] at empty
    have unshifted : excessBits v.toInt.natAbs = 0 := by
      by_contra shifted
      have := le_topFourteen (Nat.pos_of_ne_zero shifted)
      omega
    have hzero : v.toInt = 0 := by
      rwa [topFourteen, unshifted, pow_zero, Nat.div_one, Int.natAbs_eq_zero] at empty
    exact ⟨by rw [hsign, hzero]; rfl, by rw [hshift, unshifted]⟩
  · have hv : v = 0x80000000#32 := by
      have hsize : 31 < v.toInt.natAbs.size := by
        rw [hshift, excessBits] at most
        omega
      have htop := Nat.lt_size.1 hsize
      have := v.le_toInt
      have := v.toInt_lt
      exact BitVec.eq_of_toInt_eq (by rw [show (0x80000000#32).toInt = -2 ^ 31 by decide]; omega)
    subst hv
    decide

/-- The sign of a canonical lane can carry its magnitude: only `-2^31` has shift 18. -/
theorem laneMagnitude_lt_of_canonical {nib : BitVec 4} {w : Word16} (canonical : CanonicalFields nib w) :
    laneMagnitude nib w < 2 ^ 31 + laneSign w := by
  by_cases most : declaredShift nib w = 18
  · obtain ⟨hsign, hmant⟩ := canonical.mostNegative most
    rw [laneMagnitude, most, hmant, hsign]
    decide
  · have hle : declaredShift nib w ≤ 17 := Nat.le_of_lt_succ (lt_of_le_of_ne canonical.shift_le most)
    have hpow : 2 ^ declaredShift nib w ≤ 2 ^ 17 := Nat.pow_le_pow_right two_pos hle
    calc laneMagnitude nib w < 2 ^ 14 * 2 ^ 17 :=
          Nat.mul_lt_mul_of_lt_of_le (laneMant_lt w) hpow (Nat.two_pow_pos 17)
      _ ≤ 2 ^ 31 + laneSign w := Nat.le_add_right _ _

/-- Decoding a canonical lane and encoding the value gives the lane, field by field. -/
theorem encodedLane_decLane {nib : BitVec 4} {w : Word16} (canonical : CanonicalFields nib w) :
    laneNibble (decLane nib w) = nib ∧ laneWord (decLane nib w) = w := by
  have hvalue : (decLane nib w).toInt = laneValue nib w := toInt_decLane (laneMagnitude_lt_of_canonical canonical)
  have hs := laneSign_lt w
  have hpos : laneSign w = 1 → 0 < laneMagnitude nib w := fun negative =>
    Nat.mul_pos (Nat.pos_of_ne_zero fun empty => by have := (canonical.zero empty).1; omega) (Nat.two_pow_pos _)
  have hparts : (laneValue nib w).natAbs = laneMagnitude nib w ∧
      (if laneValue nib w < 0 then 1 else 0) = laneSign w := by
    unfold laneValue
    split <;> split <;> omega
  obtain ⟨habs, hneg⟩ := hparts
  have hexcess : excessBits (laneMagnitude nib w) = declaredShift nib w :=
    excessBits_mul_pow (laneMant_lt w) canonical.filled
  have htop : topFourteen (laneMagnitude nib w) = laneMant w := by
    rw [topFourteen, hexcess, laneMagnitude, Nat.mul_div_cancel _ (Nat.two_pow_pos _)]
  obtain ⟨hmant, hsign, hshift⟩ := fields_encodedLane (decLane nib w)
  rw [hvalue] at hmant hsign hshift
  rw [habs] at hmant hshift
  exact lane_eq_of_fields (hmant.trans htop) (hsign.trans hneg) (hshift.trans hexcess)

theorem encodedLane_decLane_iff (nib : BitVec 4) (w : Word16) :
    laneNibble (decLane nib w) = nib ∧ laneWord (decLane nib w) = w ↔ canonicalLane nib w := by
  rw [canonicalLane_iff]
  constructor
  · rintro ⟨hnib, hword⟩
    have := canonicalFields_encodedLane (decLane nib w)
    rwa [hnib, hword] at this
  · exact encodedLane_decLane

/-! ### The round trips of four lanes (R225) -/

theorem nibble_enc4to5W0 (v0 v1 v2 v3 : Word32) :
    nibble (enc4to5W0 v0 v1 v2 v3) 0 = laneNibble v0 ∧ nibble (enc4to5W0 v0 v1 v2 v3) 1 = laneNibble v1 ∧
    nibble (enc4to5W0 v0 v1 v2 v3) 2 = laneNibble v2 ∧ nibble (enc4to5W0 v0 v1 v2 v3) 3 = laneNibble v3 :=
  nibble_packNibbles _ _ _ _

/-- Word 0 is what its four nibbles say. -/
theorem enc4to5W0_eq_iff (v0 v1 v2 v3 : Word32) (w0 : Word16) :
    enc4to5W0 v0 v1 v2 v3 = w0 ↔ laneNibble v0 = nibble w0 0 ∧ laneNibble v1 = nibble w0 1 ∧
      laneNibble v2 = nibble w0 2 ∧ laneNibble v3 = nibble w0 3 := by
  constructor
  · rintro rfl
    obtain ⟨h0, h1, h2, h3⟩ := nibble_enc4to5W0 v0 v1 v2 v3
    exact ⟨h0.symm, h1.symm, h2.symm, h3.symm⟩
  · rintro ⟨h0, h1, h2, h3⟩
    rw [enc4to5W0, h0, h1, h2, h3, packNibbles_nibble]

theorem dec4to5_enc4to5 (s : State) (v0 v1 v2 v3 : Word32) :
    exec (.dec4to5 (enc4to5W0 v0 v1 v2 v3) (laneWord v0) (laneWord v1) (laneWord v2) (laneWord v3)) s =
      .next { s with
        result := .values (decLane (laneNibble v0) (laneWord v0)) (decLane (laneNibble v1) (laneWord v1))
          (decLane (laneNibble v2) (laneWord v2)) (decLane (laneNibble v3) (laneWord v3)) } := by
  obtain ⟨h0, h1, h2, h3⟩ := nibble_enc4to5W0 v0 v1 v2 v3
  rw [exec_dec4to5, h0, h1, h2, h3]

theorem exec_dec4to5_values_iff {s : State} {w0 w1 w2 w3 w4 : Word16} {x0 x1 x2 x3 : Word32} :
    exec (.dec4to5 w0 w1 w2 w3 w4) s = .next { s with result := .values x0 x1 x2 x3 } ↔
      decLane (nibble w0 0) w1 = x0 ∧ decLane (nibble w0 1) w2 = x1 ∧ decLane (nibble w0 2) w3 = x2 ∧
        decLane (nibble w0 3) w4 = x3 := by
  simp [exec_dec4to5]

theorem exec_enc4to5_words_iff {s : State} {w0 w1 w2 w3 w4 : Word16} {x0 x1 x2 x3 : Word32} :
    exec (.enc4to5 x0 x1 x2 x3) s = .next { s with result := .words w0 w1 w2 w3 w4 } ↔
      enc4to5W0 x0 x1 x2 x3 = w0 ∧ laneWord x0 = w1 ∧ laneWord x1 = w2 ∧ laneWord x2 = w3 ∧ laneWord x3 = w4 := by
  simp [exec_enc4to5]

/-- Settles O39: each lane keeps its top bits (`decLane_encodedLane`), and is fixed exactly when canonical
(`encodedLane_decLane_iff`). -/
theorem codec4to5RoundTrips : Obligations.Codec4to5RoundTrips := by
  constructor
  · intro s v0 v1 v2 v3 kept
    exact ⟨_, _, _, _, _, _, _, _, _, exec_enc4to5 s v0 v1 v2 v3, dec4to5_enc4to5 s v0 v1 v2 v3,
      decLane_encodedLane v0, decLane_encodedLane v1, decLane_encodedLane v2, decLane_encodedLane v3⟩
  · intro s w0 w1 w2 w3 w4 x0 x1 x2 x3 decoded
    obtain ⟨rfl, rfl, rfl, rfl⟩ := exec_dec4to5_values_iff.1 decoded
    rw [exec_enc4to5_words_iff, enc4to5W0_eq_iff]
    simp only [← encodedLane_decLane_iff]
    tauto

/-! ### The buffer forms (R226, R227) -/

theorem exec_enc4to5Buf_partialGroup {s : State} {a : List Word32} (h : a.length % 4 ≠ 0) :
    exec (.enc4to5Buf a) s = .refused .countNotMultipleOf4 := if_pos h

theorem exec_enc4to5Buf {s : State} {a : List Word32} (whole : a.length % 4 = 0)
    (admitted : ∀ m, s.cfg.nMax = some m → a.length ≤ m) :
    exec (.enc4to5Buf a) s = .next { s with result := .bytes (enc4to5Groups s.cfg.bufWordOrder a) } :=
  (if_neg (not_not.2 whole)).trans (arrayOp_of_admits _ ((admitsCount_iff _ _).2 admitted))

theorem exec_dec4to5Buf_partialGroup {s : State} {n : Nat} (buf : List Byte) (h : n % 4 ≠ 0) :
    exec (.dec4to5Buf buf n) s = .refused .countNotMultipleOf4 := if_pos h

theorem exec_dec4to5Buf {s : State} {n : Nat} (buf : List Byte) (whole : n % 4 = 0)
    (admitted : ∀ m, s.cfg.nMax = some m → n ≤ m) :
    exec (.dec4to5Buf buf n) s =
      .next { s with result := arrayResult (dec4to5Buf s.cfg.bufWordOrder buf n) } :=
  (if_neg (not_not.2 whole)).trans (arrayOp_of_admits _ ((admitsCount_iff _ _).2 admitted))

/-- Four values as they stand in an array. -/
def groupValues (g : Word32 × Word32 × Word32 × Word32) : List Word32 := [g.1, g.2.1, g.2.2.1, g.2.2.2]

/-- The five words of `enc4to5` of a group, word 0 first. -/
def groupWords (g : Word32 × Word32 × Word32 × Word32) : List Word16 :=
  [enc4to5W0 g.1 g.2.1 g.2.2.1 g.2.2.2, laneWord g.1, laneWord g.2.1, laneWord g.2.2.1, laneWord g.2.2.2]

theorem length_groupValues (groups : List (Word32 × Word32 × Word32 × Word32)) :
    (groups.flatMap groupValues).length = 4 * groups.length := by
  induction groups with
  | nil => rfl
  | cons g gs ih =>
    rw [List.flatMap_cons, List.length_append, ih, List.length_cons, Nat.mul_succ, Nat.add_comm]
    rfl

theorem enc4to5Groups_groupValues (order : WordOrder) (groups : List (Word32 × Word32 × Word32 × Word32)) :
    enc4to5Groups order (groups.flatMap groupValues) =
      groups.flatMap fun g => (groupWords g).flatMap (bufWord order) := by
  induction groups with
  | nil => rfl
  | cons g gs ih =>
    rw [List.flatMap_cons, List.flatMap_cons, ← ih]
    simp [groupValues, groupWords, enc4to5Groups]

/-- Settles O40: the loop over the array by groups (`enc4to5Groups_groupValues`), the bytes of each word as numbers. -/
theorem enc4to5BufWritesEachGroup : Obligations.Enc4to5BufWritesEachGroup := by
  intro s
  refine ⟨fun a => exec_enc4to5Buf_partialGroup, ?_⟩
  intro groups a admitted
  have whole : a.length % 4 = 0 := (length_groupValues groups).symm ▸ Nat.mul_mod_right 4 _
  rw [exec_enc4to5Buf whole admitted, show a = groups.flatMap groupValues from rfl, enc4to5Groups_groupValues,
    funext (bufWord_eq s.cfg.bufWordOrder)]
  rfl

/-- Word `j` of group `g` of a buffer, by index (R227). -/
def groupWord (order : WordOrder) (buf : List Byte) (g j : Nat) : Word16 :=
  readBufWord order (buf.getD (10 * g + 2 * j) 0) (buf.getD (10 * g + 2 * j + 1) 0)

/-- Value `k` of a buffer, by index: lane `k % 4` of group `k / 4` (R227). -/
def bufValue (order : WordOrder) (buf : List Byte) (k : Nat) : Word32 :=
  decLane (nibble (groupWord order buf (k / 4) 0) (k % 4)) (groupWord order buf (k / 4) (k % 4 + 1))

theorem groupWord_succ (order : WordOrder) (buf : List Byte) (g j : Nat) :
    groupWord order buf (g + 1) j = groupWord order (buf.drop 10) g j := by
  have hindex (i : Nat) : (buf.drop 10).getD i 0 = buf.getD (10 + i) 0 := by
    rw [List.getD_eq_getElem?_getD, List.getElem?_drop, List.getD_eq_getElem?_getD]
  rw [groupWord, groupWord, hindex, hindex]
  congr 2 <;> omega

theorem bufValue_add_four (order : WordOrder) (buf : List Byte) (k : Nat) :
    bufValue order buf (4 + k) = bufValue order (buf.drop 10) k := by
  have hgroup : (4 + k) / 4 = k / 4 + 1 := by omega
  rw [bufValue, hgroup, Nat.add_mod_left, groupWord_succ, groupWord_succ, bufValue]

theorem dec4to5Groups_eq_map (order : WordOrder) (g : Nat) {buf : List Byte} (h : 10 * g ≤ buf.length) :
    dec4to5Groups order g buf = (List.range (4 * g)).map (bufValue order buf) := by
  induction g generalizing buf with
  | zero => simp [dec4to5Groups]
  | succ g ih =>
    match buf, h with
    | a0 :: a1 :: b0 :: b1 :: c0 :: c1 :: d0 :: d1 :: e0 :: e1 :: rest, h =>
      have hrest : 10 * g ≤ rest.length := by simp only [List.length_cons] at h; omega
      rw [dec4to5Groups, ih hrest, Nat.mul_succ, Nat.add_comm, List.range_add, List.map_append, List.map_map]
      have hlater : bufValue order (a0 :: a1 :: b0 :: b1 :: c0 :: c1 :: d0 :: d1 :: e0 :: e1 :: rest) ∘ (4 + ·) =
          bufValue order rest := funext fun k => bufValue_add_four order _ k
      rw [hlater]
      rfl

theorem dec4to5Buf_of_short {order : WordOrder} {buf : List Byte} {n : Nat} (h : buf.length < 10 * (n / 4)) :
    dec4to5Buf order buf n = .error { needed := 10 * (n / 4), avail := buf.length } := if_pos h

theorem dec4to5Buf_of_long {order : WordOrder} {buf : List Byte} {n : Nat} (h : 10 * (n / 4) ≤ buf.length) :
    dec4to5Buf order buf n = .ok (dec4to5Groups order (n / 4) buf) := if_neg (Nat.not_lt.2 h)

/-- Settles O41: the length check of R227, and the loop over the groups by index (`dec4to5Groups_eq_map`). -/
theorem dec4to5BufReadsEachGroup : Obligations.Dec4to5BufReadsEachGroup := by
  intro s buf n
  refine ⟨exec_dec4to5Buf_partialGroup buf, fun whole admitted short => ?_, fun whole admitted long => ?_⟩
  · rw [exec_dec4to5Buf buf whole admitted, dec4to5Buf_of_short short, arrayResult]
  · have hcount : 4 * (n / 4) = n := Nat.mul_div_cancel' (Nat.dvd_of_mod_eq_zero whole)
    rw [exec_dec4to5Buf buf whole admitted, dec4to5Buf_of_long long, arrayResult, dec4to5Groups_eq_map _ _ long, hcount]
    unfold bufValue groupWord
    simp only [readBufWord_eq]

end Sys2Proof.Proofs.Codec4to5
end

section
/-! PROOFS of family 45_codec_sharedlz: the class as a number, the greedy cutting and its uniqueness, the bytes of the
runs, the decoder's loop by index, and the round trip with its truncations. -/

namespace Sys2Proof.Proofs.CodecSlz

open Sys2Proof Sys2Proof.Machine
open Sys2Proof.Proofs.Memory (slzDecoderStaysInTheBuffer)
open Sys2Proof.Proofs.Encoding (shiftByte_eq_append)
open Sys2Proof.Proofs.Sync (toNat_u16be extractLsb'_eq_ofNat)
open Sys2Proof.Proofs.Codec10p6 (admitsCount_iff bufWord_eq)

/-! ### The meanings of the four operations (R243, R244, R250, R251) -/

section
variable {s : State} {a : List Word32} {n : Nat}

theorem exec_encSlzU (admitted : ∀ m, s.cfg.nMax = some m → a.length ≤ m) :
    exec (.encSlzU a) s =
      .next { s with result := .bytes (encSlz s.cfg.slzCollapseBeforeCompare (a.map unsignedElem)) } :=
  arrayOp_of_admits _ ((admitsCount_iff _ _).2 admitted)

theorem exec_encSlzS (admitted : ∀ m, s.cfg.nMax = some m → a.length ≤ m) :
    exec (.encSlzS a) s =
      .next { s with result := .bytes (encSlz s.cfg.slzCollapseBeforeCompare (a.map signedElem)) } :=
  arrayOp_of_admits _ ((admitsCount_iff _ _).2 admitted)

theorem exec_decSlzU (buf : List Byte) (admitted : ∀ m, s.cfg.nMax = some m → n ≤ m) :
    exec (.decSlzU buf n) s = .next { s with result := slzResult (decSlz false buf n) } :=
  arrayOp_of_admits _ ((admitsCount_iff _ _).2 admitted)

theorem exec_decSlzS (buf : List Byte) (admitted : ∀ m, s.cfg.nMax = some m → n ≤ m) :
    exec (.decSlzS buf n) s = .next { s with result := slzResult (decSlz true buf n) } :=
  arrayOp_of_admits _ ((admitsCount_iff _ _).2 admitted)

end

/-! ### The class of a magnitude (R241) -/

theorem rawClass_eq (a : Word32) : rawClass a = bitsAbove15 a := by
  have := sig_le a
  rw [rawClass, clz32, Config.valueWidth, bitsAbove15, ← sig_eq_size]
  omega

theorem bitsAbove15_le (a : Word32) : bitsAbove15 a ≤ 17 :=
  Nat.sub_le_sub_right (Nat.size_le.2 a.isLt) 15

theorem slzClass_eq (a : Word32) : slzClass a = min (bitsAbove15 a) 16 := by
  have := bitsAbove15_le a
  rw [slzClass, rawClass_eq]
  split <;> omega

theorem bitsAbove15_eq_17_iff (a : Word32) : bitsAbove15 a = 17 ↔ 2 ^ 31 ≤ a.toNat := by
  have := bitsAbove15_le a
  rw [← Nat.lt_size]
  unfold bitsAbove15 at *
  omega

/-- Settles O44: the class is `bitsAbove15`, collapsed at 16. -/
theorem slzClassCountsSignificantBits : Obligations.SlzClassCountsSignificantBits := fun a =>
  ⟨rawClass_eq a, slzClass_eq a, rawClass_eq a ▸ bitsAbove15_eq_17_iff a⟩

theorem joins_iff_mayJoin (c : Bool) (r : SlzRun) (e : SlzElem) :
    joins c r e = true ↔ mayJoin c r.mags.length r e := by
  have hclass : (compareClass c e.mag : Int) =
      if c = true then min (bitsAbove15 e.mag : Int) 16 else (bitsAbove15 e.mag : Int) := by
    cases c
    · simp [compareClass, rawClass_eq]
    · simp [compareClass, slzClass_eq]
  rw [joins_iff, hclass]
  rfl

/-! ### Runs as R245 cuts them -/

/-- `r` with one more element. -/
def extend (r : SlzRun) (e : SlzElem) : SlzRun := { r with mags := r.mags ++ [e.mag] }

theorem cutRuns_of_joins {c : Bool} {r : SlzRun} {e : SlzElem} (rest : List SlzElem)
    (h : mayJoin c r.mags.length r e) : cutRuns c r (e :: rest) = cutRuns c (extend r e) rest := by
  rw [cutRuns_cons, if_pos ((joins_iff_mayJoin c r e).2 h)]
  rfl

theorem cutRuns_of_not_joins {c : Bool} {r : SlzRun} {es : List SlzElem}
    (h : ∀ e, es.head? = some e → ¬ mayJoin c r.mags.length r e) : cutRuns c r es = r :: slzRuns c es := by
  cases es with
  | nil => rfl
  | cons e rest =>
    rw [cutRuns_cons, if_neg (mt (joins_iff_mayJoin c r e).1 (h e rfl))]
    rfl

theorem runElems_extend {r : SlzRun} {e : SlzElem} (h : e.neg = r.neg) : runElems (extend r e) = runElems r ++ [e] := by
  rw [runElems, extend, List.map_append, runElems, ← h]
  rfl

theorem runElems_startRun (e : SlzElem) : runElems (startRun e) = [e] := rfl

theorem wellCut_startRun (c : Bool) (e : SlzElem) : wellCut c (startRun e) :=
  ⟨e.mag, [], rfl, slzClass_eq e.mag, fun _ h => (Nat.not_lt_zero _ h).elim⟩

theorem wellCut_extend {c : Bool} {r : SlzRun} {e : SlzElem} (hr : wellCut c r) (h : mayJoin c r.mags.length r e) :
    wellCut c (extend r e) := by
  obtain ⟨m, ms, hmags, hshift, hjoin⟩ := hr
  have hsign : e.neg = r.neg := h.2.2
  refine ⟨m, ms ++ [e.mag], by rw [extend, hmags, List.cons_append], hshift, fun k hk => ?_⟩
  by_cases old : k < ms.length
  · rw [List.getElem_append_left old]
    exact hjoin k old
  · obtain rfl : k = ms.length := by simp only [List.length_append, List.length_singleton] at hk; omega
    rw [List.getElem_concat_length rfl]
    rw [hmags, List.length_cons] at h
    exact hsign ▸ h

section
variable {c : Bool} {r : SlzRun}

theorem length_pos_of_wellCut (h : wellCut c r) : 1 ≤ r.mags.length := by
  obtain ⟨m, ms, hmags, -, -⟩ := h
  rw [hmags]
  exact Nat.le_add_left 1 ms.length

/-- The last element of a run joined fewer than 255. -/
theorem length_le_of_wellCut (h : wellCut c r) : r.mags.length ≤ 255 := by
  obtain ⟨m, ms, hmags, -, hjoin⟩ := h
  rw [hmags, List.length_cons]
  by_cases single : ms.length = 0
  · omega
  · obtain ⟨room, -, -⟩ := hjoin (ms.length - 1) (by omega)
    omega

theorem shift_le_of_wellCut (h : wellCut c r) : r.shift ≤ 16 := by
  obtain ⟨m, ms, -, hshift, -⟩ := h
  exact hshift ▸ Nat.min_le_right _ _

end

/-! ### The greedy cutting (R245, R249) -/

/-- The first element after a run is that of the next run, for runs that are not empty. -/
theorem cutGreedily_cons_iff {c : Bool} {r : SlzRun} {rs : List SlzRun} (nonempty : ∀ r' ∈ rs, wellCut c r') :
    cutGreedily c (r :: rs) ↔
      (∀ e, (rs.flatMap runElems).head? = some e → ¬ mayJoin c r.mags.length r e) ∧ cutGreedily c rs := by
  cases rs with
  | nil => simp [cutGreedily]
  | cons r' rest =>
    obtain ⟨m, ms, hmags, -, -⟩ := nonempty r' List.mem_cons_self
    simp [cutGreedily, runElems, hmags]

theorem flatMap_runElems_cutRuns (c : Bool) (r : SlzRun) (es : List SlzElem) :
    (cutRuns c r es).flatMap runElems = runElems r ++ es := by
  induction es generalizing r with
  | nil => simp
  | cons e rest ih =>
    by_cases h : mayJoin c r.mags.length r e
    · rw [cutRuns_of_joins rest h, ih, runElems_extend h.2.2, List.append_assoc, List.singleton_append]
    · rw [cutRuns_of_not_joins (by simpa using h), List.flatMap_cons, slzRuns, ih, runElems_startRun,
        List.singleton_append]

theorem flatMap_runElems_slzRuns (c : Bool) (es : List SlzElem) : (slzRuns c es).flatMap runElems = es := by
  cases es with
  | nil => rfl
  | cons e rest => exact flatMap_runElems_cutRuns c (startRun e) rest

theorem wellCut_of_mem_cutRuns {c : Bool} {r : SlzRun} (hr : wellCut c r) (es : List SlzElem) :
    ∀ r' ∈ cutRuns c r es, wellCut c r' := by
  induction es generalizing r with
  | nil => simpa using hr
  | cons e rest ih =>
    by_cases h : mayJoin c r.mags.length r e
    · rw [cutRuns_of_joins rest h]
      exact ih (wellCut_extend hr h)
    · rw [cutRuns_of_not_joins (by simpa using h)]
      exact List.forall_mem_cons.2 ⟨hr, ih (wellCut_startRun c e)⟩

theorem wellCut_of_mem_slzRuns {c : Bool} {es : List SlzElem} : ∀ r ∈ slzRuns c es, wellCut c r := by
  cases es with
  | nil => exact fun r hr => (List.not_mem_nil hr).elim
  | cons e rest => exact wellCut_of_mem_cutRuns (wellCut_startRun c e) rest

theorem cutGreedily_cutRuns (c : Bool) (r : SlzRun) (es : List SlzElem) : cutGreedily c (cutRuns c r es) := by
  induction es generalizing r with
  | nil => exact trivial
  | cons e rest ih =>
    by_cases h : mayJoin c r.mags.length r e
    · rw [cutRuns_of_joins rest h]
      exact ih _
    · rw [cutRuns_of_not_joins (by simpa using h), cutGreedily_cons_iff wellCut_of_mem_slzRuns,
        flatMap_runElems_slzRuns]
      exact ⟨by simpa using h, ih _⟩

theorem cutGreedily_slzRuns (c : Bool) (es : List SlzElem) : cutGreedily c (slzRuns c es) := by
  cases es with
  | nil => exact trivial
  | cons e rest => exact cutGreedily_cutRuns c (startRun e) rest

/-- Elements that may join one after another all join. -/
theorem cutRuns_map_append {c : Bool} {r : SlzRun} {ms : List Word32} (es : List SlzElem)
    (h : ∀ k (hk : k < ms.length), mayJoin c (r.mags.length + k) r { mag := ms[k], neg := r.neg }) :
    cutRuns c r ((ms.map fun m => { mag := m, neg := r.neg }) ++ es) =
      cutRuns c { r with mags := r.mags ++ ms } es := by
  induction ms generalizing r with
  | nil => simp
  | cons m ms ih =>
    have hfirst : mayJoin c r.mags.length r { mag := m, neg := r.neg } := h 0 (Nat.zero_lt_succ _)
    rw [List.map_cons, List.cons_append, cutRuns_of_joins _ hfirst]
    refine (ih (r := extend r { mag := m, neg := r.neg }) fun k hk => ?_).trans (by simp [extend])
    have hlength : (extend r { mag := m, neg := r.neg }).mags.length + k = r.mags.length + (k + 1) := by
      simp only [extend, List.length_append, List.length_singleton]
      omega
    rw [hlength]
    exact h (k + 1) (Nat.succ_lt_succ hk)

/-- A well-cut run whose successor cannot join it is the first the encoder cuts. -/
theorem slzRuns_runElems_append {c : Bool} {r : SlzRun} {es : List SlzElem} (hr : wellCut c r)
    (hnext : ∀ e, es.head? = some e → ¬ mayJoin c r.mags.length r e) :
    slzRuns c (runElems r ++ es) = r :: slzRuns c es := by
  obtain ⟨m, ms, hmags, hshift, hjoin⟩ := hr
  have hstart : startRun { mag := m, neg := r.neg } = { r with mags := [m] } := by
    rw [startRun, slzClass_eq, ← hshift]
  rw [runElems, hmags, List.map_cons, List.cons_append, slzRuns, hstart]
  refine (cutRuns_map_append (r := { r with mags := [m] }) es fun k hk => ?_).trans ?_
  · rw [List.length_singleton, Nat.add_comm]
    exact hjoin k hk
  · rw [List.singleton_append, ← hmags]
    exact cutRuns_of_not_joins hnext

theorem slzRuns_flatMap_runElems {c : Bool} {rs : List SlzRun} (hrs : ∀ r ∈ rs, wellCut c r)
    (greedy : cutGreedily c rs) : slzRuns c (rs.flatMap runElems) = rs := by
  induction rs with
  | nil => rfl
  | cons r rs ih =>
    obtain ⟨hr, hrest⟩ := List.forall_mem_cons.1 hrs
    obtain ⟨hnext, later⟩ := (cutGreedily_cons_iff hrest).1 greedy
    rw [List.flatMap_cons, slzRuns_runElems_append hr hnext, ih hrest later]

/-- Settles O42: the encoder's runs have the three properties, and the encoder cuts runs with these properties the way
they are cut (`slzRuns_flatMap_runElems`). -/
theorem slzRunsAreCutGreedily : Obligations.SlzRunsAreCutGreedily := by
  intro c es
  refine ⟨⟨flatMap_runElems_slzRuns c es, wellCut_of_mem_slzRuns, cutGreedily_slzRuns c es⟩, ?_⟩
  rintro rs rfl hrs greedy
  exact (slzRuns_flatMap_runElems hrs greedy).symm

/-! ### The length of the stream (R255) -/

theorem runElems_length (r : SlzRun) : (runElems r).length = r.mags.length := List.length_map ..

theorem flatMap_runBytes_length (rs : List SlzRun) :
    (rs.flatMap runBytes).length = 2 * rs.length + 2 * (rs.flatMap runElems).length := by
  induction rs with
  | nil => rfl
  | cons r rs ih =>
    simp only [List.flatMap_cons, List.length_append, List.length_cons, runBytes_length, runElems_length, ih]
    omega

theorem runs_length_bounds {c : Bool} {rs : List SlzRun} (hrs : ∀ r ∈ rs, wellCut c r) :
    rs.length ≤ (rs.flatMap runElems).length ∧ (rs.flatMap runElems).length ≤ 255 * rs.length := by
  induction rs with
  | nil => exact ⟨le_rfl, le_rfl⟩
  | cons r rs ih =>
    obtain ⟨hr, hrest⟩ := List.forall_mem_cons.1 hrs
    have hmin := length_pos_of_wellCut hr
    have hmax := length_le_of_wellCut hr
    have := ih hrest
    simp only [List.flatMap_cons, List.length_append, List.length_cons, runElems_length]
    omega

theorem encSlz_length (c : Bool) (es : List SlzElem) :
    (encSlz c es).length = 2 * (slzRuns c es).length + 2 * es.length := by
  rw [encSlz, flatMap_runBytes_length, flatMap_runElems_slzRuns]

/-- Settles O45: every run has from 1 to 255 elements, and the runs hold the array's elements. -/
theorem slzStreamLength : Obligations.SlzStreamLength := by
  intro c es
  have bounds := runs_length_bounds (wellCut_of_mem_slzRuns (c := c) (es := es))
  rw [flatMap_runElems_slzRuns] at bounds
  exact ⟨encSlz_length c es, bounds⟩

/-! ### The bytes of a run as arithmetic (R105, R243, R246) -/

theorem toNat_shiftByte (neg : Bool) {shift : Nat} (h : shift < 128) :
    (shiftByte (signBit neg) (BitVec.ofNat 7 shift)).toNat = shift + if neg = true then 128 else 0 := by
  rw [shiftByte_eq_append, BitVec.toNat_append, ← Nat.shiftLeft_add_eq_or_of_lt (BitVec.isLt _), Nat.shiftLeft_eq,
    BitVec.toNat_ofNat, Nat.mod_eq_of_lt h, signBit, BitVec.toNat_ofBool]
  cases neg
  · simp
  · simp [Nat.add_comm]

theorem shiftByte_eq_ofNat (neg : Bool) {shift : Nat} (h : shift < 128) :
    shiftByte (signBit neg) (BitVec.ofNat 7 shift) = BitVec.ofNat 8 (shift + if neg = true then 128 else 0) := by
  rw [← toNat_shiftByte neg h, BitVec.ofNat_toNat, BitVec.setWidth_eq]

theorem toNat_slzStored (shift : Nat) (m : Word32) :
    (slzStored shift m).toNat = m.toNat / 2 ^ shift % 2 ^ 16 := by
  rw [slzStored, BitVec.toNat_setWidth, BitVec.toNat_ushiftRight, Nat.shiftRight_eq_div_pow]

theorem le16_slzStored (shift : Nat) (m : Word32) :
    le16 (slzStored shift m) =
      [BitVec.ofNat 8 (m.toNat / 2 ^ shift), BitVec.ofNat 8 (m.toNat / 2 ^ shift / 256)] := by
  have low (x : Nat) : BitVec.ofNat 8 (x % 2 ^ 16) = BitVec.ofNat 8 x :=
    BitVec.eq_of_toNat_eq (by simp only [BitVec.toNat_ofNat]; omega)
  have high (x : Nat) : BitVec.ofNat 8 (x % 2 ^ 16 / 256) = BitVec.ofNat 8 (x / 256) :=
    BitVec.eq_of_toNat_eq (by simp only [BitVec.toNat_ofNat]; omega)
  have hword := bufWord_eq .little (slzStored shift m)
  rwa [if_pos rfl, toNat_slzStored, low, high] at hword

theorem runBytes_eq {r : SlzRun} (h : r.shift < 128) :
    runBytes r =
      [BitVec.ofNat 8 (r.shift + if r.neg then 128 else 0), BitVec.ofNat 8 r.mags.length] ++
        r.mags.flatMap fun m =>
          [BitVec.ofNat 8 (m.toNat / 2 ^ r.shift), BitVec.ofNat 8 (m.toNat / 2 ^ r.shift / 256)] := by
  simp only [runBytes, shiftByte_eq_ofNat r.neg h, le16_slzStored, List.cons_append, List.nil_append]

theorem signedElem_eq (v : Word32) :
    signedElem v = { mag := BitVec.ofNat 32 v.toInt.natAbs, neg := decide (v.toInt < 0) } := by
  have hmag : abs32 v = BitVec.ofNat 32 v.toInt.natAbs := by
    rw [← abs32_toNat, BitVec.ofNat_toNat, BitVec.setWidth_eq]
  have hneg : sgn v = decide (v.toInt < 0) := by
    rw [Bool.eq_iff_iff, sgn_iff, decide_eq_true_eq]
  rw [signedElem, hmag, hneg]

/-- Settles O43: no run's shift exceeds 16, so its bytes are those numbers (`runBytes_eq`). -/
theorem slzEncodersWriteTheRuns : Obligations.SlzEncodersWriteTheRuns := by
  intro s a admitted stream unsigned signed c
  have hstream (es : List SlzElem) : encSlz c es = stream (slzRuns c es) :=
    List.flatMap_congr fun r hr =>
      runBytes_eq ((shift_le_of_wellCut (wellCut_of_mem_slzRuns r hr)).trans_lt (by decide))
  have hsigned : signedElem = signed := funext signedElem_eq
  rw [exec_encSlzU admitted, exec_encSlzS admitted, hstream, hstream, hsigned]
  exact ⟨rfl, rfl⟩

/-! ### Shift bytes and elements as arithmetic (R250, R251, R110) -/

theorem readShiftByte_eq (sg : Bool) (h : Byte) : readShiftByte sg h = runSignShift sg h := by
  have hsign : h.getLsbD 7 = decide (h.toNat / 128 = 1) := by
    have := h.isLt
    rw [BitVec.getLsbD, Nat.testBit_eq_decide_div_mod_eq, decide_eq_decide]
    omega
  have hshift : (h.extractLsb' 0 7).toNat = h.toNat % 128 := by
    rw [extractLsb'_eq_ofNat, BitVec.toNat_ofNat, pow_zero, Nat.div_one]
  rw [readShiftByte, runSignShift, hsign, hshift]

theorem slzElement_eq_ofInt (neg : Bool) (shift : Nat) (w : Word16) :
    slzElement neg shift w =
      BitVec.ofInt 32 (if neg = true then -((w.toNat * 2 ^ shift : Nat) : Int) else (w.toNat * 2 ^ shift : Nat)) := by
  have hshl : shl32 (w.setWidth 32) shift = BitVec.ofInt 32 (w.toNat * 2 ^ shift : Nat) := by
    apply BitVec.eq_of_toNat_eq
    rw [shl32, BitVec.toNat_shiftLeft, BitVec.toNat_setWidth_of_le (by decide), Nat.shiftLeft_eq,
      BitVec.ofInt_natCast, BitVec.toNat_ofNat]
  rw [slzElement, hshl, neg32]
  split
  · rw [BitVec.ofInt_neg]
  · rfl

theorem slzElement_u16le (neg : Bool) (shift : Nat) (b0 b1 : Byte) :
    slzElement neg shift (u16le b0 b1) = runElement neg shift b0 b1 := by
  have hword : (u16le b0 b1).toNat = b0.toNat + 256 * b1.toNat := by
    rw [u16le, toNat_u16be]
    omega
  rw [slzElement_eq_ofInt, hword]
  rfl

/-! ### The decoder's loop (R250) -/

/-- A decoder's result with the elements `out` before its own. -/
def withElems (out : List Word32) (r : Except Truncation (List Word32 × Nat)) :
    Except Truncation (List Word32 × Nat) :=
  r.map fun arrayAndIndex => (out ++ arrayAndIndex.1, arrayAndIndex.2)

@[simp] theorem withElems_ok (out out' : List Word32) (p : Nat) :
    withElems out (.ok (out', p)) = .ok (out ++ out', p) := rfl

@[simp] theorem withElems_error (out : List Word32) (t : Truncation) : withElems out (.error t) = .error t := rfl

@[simp] theorem withElems_nil (r : Except Truncation (List Word32 × Nat)) : withElems [] r = r := by
  cases r <;> rfl

theorem withElems_withElems (out out' : List Word32) (r : Except Truncation (List Word32 × Nat)) :
    withElems out (withElems out' r) = withElems (out ++ out') r := by
  cases r with
  | ok r => rw [withElems_ok, withElems_ok, withElems_ok, List.append_assoc]
  | error t => rfl

theorem decSlzLoop_cons_word (sg : Bool) (len : Nat) (b0 b1 : Byte) (rest : List Byte) (p want left : Nat) (neg : Bool)
    (shift : Nat) :
    decSlzLoop sg len (b0 :: b1 :: rest) p (want + 1) (left + 1) neg shift =
      withElems [slzElement neg shift (u16le b0 b1)] (decSlzLoop sg len rest (p + 2) want left neg shift) := by
  rw [decSlzLoop]
  cases decSlzLoop sg len rest (p + 2) want left neg shift <;> rfl

theorem decSlzLoop_drop_of_short {buf : List Byte} {p : Nat} (h : p + 2 > buf.length) (sg : Bool) (len want left : Nat)
    (neg : Bool) (shift : Nat) :
    decSlzLoop sg len (buf.drop p) p (want + 1) left neg shift = .error { needed := p + 2, avail := len } := by
  have hdrop : (buf.drop p).length < 2 := by rw [List.length_drop]; omega
  match buf.drop p, hdrop with
  | [], _ => rfl
  | [_], _ => rfl

/-- A loop that fails names a read two bytes at a time from where it began. -/
theorem decSlzLoop_error_parity {sg : Bool} {len : Nat} {bs : List Byte} {p want left : Nat} {neg : Bool} {shift : Nat}
    {t : Truncation} (h : decSlzLoop sg len bs p want left neg shift = .error t) : t.needed % 2 = p % 2 := by
  fun_induction decSlzLoop sg len bs p want left neg shift with
  | case1 => cases h
  | case2 b0 b1 bs p want neg shift ih => rw [ih h, Nat.add_mod_right]
  | case3 => cases h
  | case4 b0 b1 bs p want left neg shift t' hrest ih =>
    cases h
    rw [ih hrest, Nat.add_mod_right]
  | case5 bs p =>
    cases h
    exact Nat.add_mod_right p 2

/-! ### The loop by index (R250, R251, R252) -/

theorem drop_eq_getD_cons {buf : List Byte} {p : Nat} (h : p + 2 ≤ buf.length) :
    buf.drop p = buf.getD p 0 :: buf.getD (p + 1) 0 :: buf.drop (p + 2) := by
  rw [List.drop_eq_getElem_cons (by omega), List.drop_eq_getElem_cons (i := p + 1) (by omega),
    List.getD_eq_getElem _ _ (by omega), List.getD_eq_getElem _ _ (by omega)]

theorem readRunWords_ok {buf : List Byte} {neg : Bool} {shift m p p' : Nat} {out out' : List Word32}
    (h : readRunWords buf neg shift m p out = .ok (out', p')) (hp : p ≤ buf.length) :
    out'.length = out.length + m ∧ p ≤ p' ∧ p' ≤ buf.length := by
  induction m generalizing p out with
  | zero =>
    cases h
    exact ⟨rfl, le_rfl, hp⟩
  | succ m ih =>
    rw [readRunWords] at h
    split at h
    · cases h
    · have := ih h (by omega)
      simp only [List.length_append, List.length_singleton] at this
      omega

/-- The words of one run: as many as the run has left or the array still wants. -/
theorem decSlzLoop_eq_readRunWords (sg : Bool) (buf : List Byte) (neg : Bool) (shift left p want : Nat)
    (out : List Word32) :
    withElems out (decSlzLoop sg buf.length (buf.drop p) p want left neg shift) =
      (readRunWords buf neg shift (min left want) p out).bind fun r =>
        withElems r.1 (decSlzLoop sg buf.length (buf.drop r.2) r.2 (want - min left want) 0 neg shift) := by
  induction left generalizing p want out with
  | zero => rw [Nat.zero_min]; rfl
  | succ left ih =>
    cases want with
    | zero => simp only [Nat.min_zero, Nat.sub_self, decSlzLoop_zero, readRunWords, Except.bind]
    | succ want =>
      rw [Nat.succ_min_succ, Nat.succ_sub_succ, readRunWords]
      by_cases short : p + 2 > buf.length
      · rw [decSlzLoop_drop_of_short short, if_pos short]
        rfl
      · rw [if_neg short, drop_eq_getD_cons (Nat.le_of_not_lt short), decSlzLoop_cons_word, withElems_withElems, ih,
          slzElement_u16le]

/-- The runs: each turn of the outer loop passes two bytes at least, so `fuel` outlasts the buffer. -/
theorem readRuns_eq_decSlzLoop (sg : Bool) (buf : List Byte) (n : Nat) (neg : Bool) (shift fuel p : Nat)
    (out : List Word32) (hp : p ≤ buf.length) (hfuel : buf.length < fuel + p) :
    readRuns sg buf n fuel p out =
      withElems out (decSlzLoop sg buf.length (buf.drop p) p (n - out.length) 0 neg shift) := by
  induction fuel generalizing neg shift p out with
  | zero => omega
  | succ fuel ih =>
    rw [readRuns]
    by_cases wanting : out.length < n
    · obtain ⟨want, hwant⟩ : ∃ want, n - out.length = want + 1 := ⟨n - out.length - 1, by omega⟩
      rw [if_pos wanting, hwant]
      by_cases short : p + 2 > buf.length
      · rw [if_pos short, decSlzLoop_drop_of_short short]
        rfl
      · rw [if_neg short, drop_eq_getD_cons (Nat.le_of_not_lt short), decSlzLoop_header,
          decSlzLoop_eq_readRunWords, readShiftByte_eq]
        dsimp only
        cases hwords : readRunWords buf _ _ _ (p + 2) out with
        | error t => rfl
        | ok r =>
          obtain ⟨out', p'⟩ := r
          obtain ⟨hlen, hfrom, hto⟩ := readRunWords_ok hwords (Nat.le_of_not_lt short)
          rw [← hwant] at hlen
          have hrest : n - out'.length = n - out.length - min (buf.getD (p + 1) 0).toNat (n - out.length) := by omega
          exact (ih _ _ p' out' hto (by omega)).trans (by rw [hrest, hwant]; rfl)
    · rw [if_neg wanting, Nat.sub_eq_zero_of_le (Nat.le_of_not_lt wanting), decSlzLoop_zero, withElems_ok,
        List.append_nil]

theorem decSlz_eq_readRuns (sg : Bool) (buf : List Byte) (n : Nat) :
    decSlz sg buf n = readRuns sg buf n (buf.length + 1) 0 [] := by
  rw [readRuns_eq_decSlzLoop sg buf n false 0 _ 0 [] (Nat.zero_le _) (Nat.lt_succ_self _), withElems_nil]
  rfl

/-- Settles O46: run by run and word by word, the model's one loop is the rule's two (`readRuns_eq_decSlzLoop`). -/
theorem slzDecodersFollowTheIndexLoop : Obligations.SlzDecodersFollowTheIndexLoop := by
  intro s buf n admitted
  rw [exec_decSlzU buf admitted, exec_decSlzS buf admitted, decSlz_eq_readRuns, decSlz_eq_readRuns]
  exact ⟨rfl, rfl⟩

/-! ### The round trip (R254, R246) -/

/-- What the elements of a run decode to. -/
def decodedRun (r : SlzRun) : List Word32 := r.mags.map fun m =>
  BitVec.ofInt 32 ((if r.neg then -1 else 1) * (m.toNat / 2 ^ r.shift % 2 ^ 16 * 2 ^ r.shift : Nat))

theorem slzElement_slzStored (neg : Bool) (shift : Nat) (m : Word32) :
    slzElement neg shift (slzStored shift m) =
      BitVec.ofInt 32 ((if neg then -1 else 1) * (m.toNat / 2 ^ shift % 2 ^ 16 * 2 ^ shift : Nat)) := by
  rw [slzElement_eq_ofInt, toNat_slzStored, ite_mul, neg_one_mul, one_mul]

theorem decSlzLoop_storedWords (sg : Bool) (len : Nat) (neg : Bool) (shift want : Nat) (rest : List Byte)
    (ms : List Word32) (p : Nat) :
    decSlzLoop sg len ((ms.flatMap fun m => le16 (slzStored shift m)) ++ rest) p (ms.length + want) ms.length
        neg shift =
      withElems (ms.map fun m => slzElement neg shift (slzStored shift m))
        (decSlzLoop sg len rest (p + 2 * ms.length) want 0 neg shift) := by
  induction ms generalizing p with
  | nil => simp
  | cons m ms ih =>
    have hwant : (m :: ms).length + want = ms.length + want + 1 := by rw [List.length_cons]; omega
    have hp : p + 2 * (m :: ms).length = p + 2 + 2 * ms.length := by rw [List.length_cons]; omega
    rw [hwant, hp, List.flatMap_cons, le16, List.append_assoc, List.cons_append, List.cons_append, List.nil_append,
      List.length_cons, decSlzLoop_cons_word, u16le_of_le16, ih, withElems_withElems, List.map_cons,
      List.singleton_append]

theorem readShiftByte_shiftByte {sg neg : Bool} {shift : Nat} (h : shift < 128) (hsign : neg = true → sg = true) :
    readShiftByte sg (shiftByte (signBit neg) (BitVec.ofNat 7 shift)) = (neg, shift) := by
  rw [readShiftByte_eq, runSignShift, toNat_shiftByte neg h]
  cases sg with
  | false =>
    obtain rfl : neg = false := by simpa using hsign
    rfl
  | true =>
    cases neg
    · simp; omega
    · simp; omega

/-- One run of an encoded array: its header, then its words. -/
theorem decSlzLoop_runBytes {sg c : Bool} {r : SlzRun} (hr : wellCut c r) (hsign : r.neg = true → sg = true)
    (len p want : Nat) (neg : Bool) (shift : Nat) (rest : List Byte) :
    decSlzLoop sg len (runBytes r ++ rest) p (r.mags.length + want) 0 neg shift =
      withElems (decodedRun r) (decSlzLoop sg len rest (p + (runBytes r).length) want 0 r.neg r.shift) := by
  have hmin := length_pos_of_wellCut hr
  have hmax := length_le_of_wellCut hr
  have hshift := shift_le_of_wellCut hr
  obtain ⟨w, hw⟩ : ∃ w, r.mags.length + want = w + 1 := ⟨r.mags.length + want - 1, by omega⟩
  have hcount : (BitVec.ofNat 8 r.mags.length).toNat = r.mags.length := by
    rw [BitVec.toNat_ofNat]
    omega
  have hdecoded : decodedRun r = r.mags.map fun m => slzElement r.neg r.shift (slzStored r.shift m) :=
    List.map_congr_left fun m _ => (slzElement_slzStored r.neg r.shift m).symm
  rw [runBytes_length, ← Nat.add_assoc, hdecoded, ← decSlzLoop_storedWords, hw, runBytes, List.cons_append,
    List.cons_append, decSlzLoop_header, readShiftByte_shiftByte (by omega) hsign, hcount]

theorem decSlzLoop_runs {sg c : Bool} {rs : List SlzRun} (hrs : ∀ r ∈ rs, wellCut c r)
    (hsign : ∀ r ∈ rs, r.neg = true → sg = true) (len p : Nat) (neg : Bool) (shift : Nat) (extra : List Byte) :
    decSlzLoop sg len (rs.flatMap runBytes ++ extra) p (rs.flatMap runElems).length 0 neg shift =
      .ok (rs.flatMap decodedRun, p + (rs.flatMap runBytes).length) := by
  induction rs generalizing p neg shift with
  | nil => exact decSlzLoop_zero ..
  | cons r rs ih =>
    obtain ⟨hr, hrest⟩ := List.forall_mem_cons.1 hrs
    obtain ⟨hneg, hnegs⟩ := List.forall_mem_cons.1 hsign
    simp only [List.flatMap_cons, List.length_append, runElems_length, List.append_assoc]
    rw [decSlzLoop_runBytes hr hneg, ih hrest hnegs, withElems_ok, Nat.add_assoc]

theorem neg_of_mem_slzRuns {c : Bool} {es : List SlzElem} {r : SlzRun} (hr : r ∈ slzRuns c es)
    (hneg : r.neg = true) : ∃ e ∈ es, e.neg = true := by
  obtain ⟨m, ms, hmags, -, -⟩ := wellCut_of_mem_slzRuns r hr
  refine ⟨{ mag := m, neg := r.neg }, ?_, hneg⟩
  rw [← flatMap_runElems_slzRuns c es]
  exact List.mem_flatMap.2 ⟨r, hr, by simp [runElems, hmags]⟩

/-- A decoder of a variant that holds the signs of the array. -/
theorem decSlz_encSlz {sg : Bool} {es : List SlzElem} (hsign : ∀ e ∈ es, e.neg = true → sg = true) (c : Bool)
    (extra : List Byte) :
    decSlz sg (encSlz c es ++ extra) es.length = .ok ((slzRuns c es).flatMap decodedRun, (encSlz c es).length) := by
  have hruns := decSlzLoop_runs (sg := sg) (wellCut_of_mem_slzRuns (c := c) (es := es))
    (fun r hr hneg => by obtain ⟨e, he, h⟩ := neg_of_mem_slzRuns hr hneg; exact hsign e he h)
    (encSlz c es ++ extra).length 0 false 0 extra
  rwa [flatMap_runElems_slzRuns, Nat.zero_add] at hruns

theorem neg_imp_of_mem_map_unsignedElem {a : List Word32} :
    ∀ e ∈ a.map unsignedElem, e.neg = true → false = true := by
  intro e he hneg
  obtain ⟨v, -, rfl⟩ := List.mem_map.1 he
  exact hneg

/-- Settles O47: by `decSlz_encSlz`, for the variant without signs and the one with. -/
theorem slzRoundTrip : Obligations.SlzRoundTrip := by
  intro s a extra admitted decoded u v c
  have hu := decSlz_encSlz neg_imp_of_mem_map_unsignedElem c extra (es := u)
  have hv := decSlz_encSlz (sg := true) (fun _ _ _ => rfl) c extra (es := v)
  rw [List.length_map] at hu hv
  rw [exec_decSlzU _ admitted, exec_decSlzS _ admitted, hu, hv]
  exact ⟨rfl, rfl⟩

/-! ### Truncated streams (R253, R305) -/

/-- A decoder that answered on a part of the stream would answer the same on the whole, which it reads to its end. -/
theorem decSlz_take {sg : Bool} {es : List SlzElem} (hsign : ∀ e ∈ es, e.neg = true → sg = true) {c : Bool}
    {k : Nat} (hk : k < (encSlz c es).length) :
    decSlz sg ((encSlz c es).take k) es.length = .error { needed := k / 2 * 2 + 2, avail := k } := by
  have hlength : ((encSlz c es).take k).length = k := List.length_take_of_le hk.le
  obtain ⟨reads, truncates⟩ := slzDecoderStaysInTheBuffer sg ((encSlz c es).take k) es.length
  rw [hlength] at reads truncates
  cases h : decSlz sg ((encSlz c es).take k) es.length with
  | ok r =>
    obtain ⟨hp, -, hsame⟩ := reads r.1 r.2 h
    have htake : (encSlz c es).take r.2 = ((encSlz c es).take k).take r.2 := by
      rw [List.take_take, Nat.min_eq_left hp]
    have hwhole := decSlz_encSlz hsign c []
    rw [List.append_nil, hsame _ htake] at hwhole
    have hend : r.2 = (encSlz c es).length := congrArg Prod.snd (Except.ok.inj hwhole)
    omega
  | error t =>
    obtain ⟨havail, hpast, hnear⟩ := truncates t h
    have heven : t.needed % 2 = 0 := decSlzLoop_error_parity h
    have hneeded : t.needed = k / 2 * 2 + 2 := by omega
    rw [← hneeded, ← havail]

/-- Settles O48: by `decSlz_take`, for the variant without signs and the one with. -/
theorem slzPrefixIsTruncated : Obligations.SlzPrefixIsTruncated := by
  intro s a k admitted c
  constructor
  · intro hk
    have h := decSlz_take neg_imp_of_mem_map_unsignedElem hk
    rw [List.length_map] at h
    rw [exec_decSlzU _ admitted, h]
    rfl
  · intro hk
    have h := decSlz_take (sg := true) (fun _ _ _ => rfl) hk
    rw [List.length_map] at h
    rw [exec_decSlzS _ admitted, h]
    rfl

end Sys2Proof.Proofs.CodecSlz
end

section
/-! PROOFS of family 60_exceptions: the events one operation raises, and the refusal of an array beyond `N_MAX`. -/

namespace Sys2Proof.Proofs.Exceptions

open Sys2Proof Sys2Proof.Machine
open Sys2Proof.Proofs.UnitState (SyncStep ColStep syncStep_frame colStep_frame exec_cases driftEvents)
open Sys2Proof.Proofs.Codec10p6 (admitsCount_iff)

/-! ### The events of one operation (R301, R316) -/

/-- The form in which the transitions append an event: none under a condition, else one. -/
theorem length_ite_nil_singleton_le {α : Type} (c : Prop) [Decidable c] (e : α) :
    (if c then [] else [e]).length ≤ 1 := by
  split <;> simp

theorem driftEvents_length_le (f : RawFrame) (s : State) : (driftEvents f s).length ≤ 1 :=
  length_ite_nil_singleton_le _ _

/-- `SYNC.END` raises nothing but the loss of the garbage that ends the stream (R160, R302). -/
theorem condition_of_mem_lossEvent {g : Nat} {e : SyncEvent} (h : e ∈ if g = 0 then [] else [SyncEvent.syncLoss g]) :
    e.condition = .syncLoss := by
  split at h
  · cases h
  · rw [List.mem_singleton.1 h]
    rfl

/-- What a transition of `SYNC` appends to `sync_diag`: nothing but at a marker, at a frame's end and at the end of the
stream, and there one event at most. -/
theorem syncStep_events {i : Instr} {s t : State} (h : SyncStep s i t) :
    ∃ es, t.syncDiag = s.syncDiag ++ es ∧ es.length ≤ 1 ∧ (i = .syncEnd → ∀ e ∈ es, e.condition = .syncLoss) := by
  cases h with
  | skip | shift | seek | header | headerEnd | body | endReading =>
    exact ⟨[], (List.append_nil _).symm, Nat.zero_le 1, fun _ _ he => nomatch he⟩
  | marker | frame => exact ⟨_, rfl, length_ite_nil_singleton_le _ _, fun hi => nomatch hi⟩
  | endSeeking => exact ⟨_, rfl, length_ite_nil_singleton_le _ _, fun _ _ => condition_of_mem_lossEvent⟩

/-- What a transition of `COL` appends to `col_diag`: the drift of a pushed frame, if it drifts. -/
theorem colStep_events {i : Instr} {s t : State} (h : ColStep s i t) :
    ∃ ec, t.colDiag = s.colDiag ++ ec ∧ ec.length ≤ 1 ∧ (ec ≠ [] → ∃ f, i = .colPush f) := by
  cases h with
  | fragment f | packet f => exact ⟨driftEvents f s, rfl, driftEvents_length_le f s, fun _ => ⟨f, rfl⟩⟩
  | finish => exact ⟨[], (List.append_nil _).symm, Nat.zero_le 1, fun hne => absurd rfl hne⟩

/-- Settles O55: a transition raises events in its own unit's diagnostics alone, by its frame, and one at most; a
`CODEC` operation raises none. -/
theorem atMostOneEventPerOperation : Obligations.AtMostOneEventPerOperation := by
  intro i s t h notReset
  obtain ⟨hi, hstep⟩ | ⟨hi, hstep⟩ | ⟨hi, r, rfl⟩ | ⟨hi, -⟩ := exec_cases h
  · obtain ⟨es, hes, hlen, hend⟩ := syncStep_events hstep
    have hcol : t.colDiag = s.colDiag := by rw [syncStep_frame hstep]
    exact ⟨es, [], hes, by simp [hcol], by simpa using hlen, fun _ => hi, fun hne => absurd rfl hne, hend⟩
  · obtain ⟨ec, hec, hlen, hpush⟩ := colStep_events hstep
    have hsync : t.syncDiag = s.syncDiag := by rw [colStep_frame hstep]
    exact ⟨[], ec, by simp [hsync], hec, by simpa using hlen, fun hne => absurd rfl hne, hpush, fun _ _ he => nomatch he⟩
  · exact ⟨[], [], by simp, by simp, Nat.zero_le 1, fun hne => absurd rfl hne, fun hne => absurd rfl hne,
      fun _ _ he => nomatch he⟩
  · exact absurd hi notReset

/-! ### Beyond `N_MAX` (R307, D39) -/

theorem admitsCount_eq_false {cfg : Config} {m n : Nat} (bound : cfg.nMax = some m) (beyond : m < n) :
    admitsCount cfg n = false :=
  Bool.eq_false_iff.2 fun admitted => absurd ((admitsCount_iff cfg n).1 admitted m bound) (Nat.not_le.2 beyond)

theorem arrayOp_beyond_nMax {s : State} {m n : Nat} (bound : s.cfg.nMax = some m) (beyond : m < n) (r : Result) :
    arrayOp n r s = .refused .nMaxExceeded :=
  arrayOp_of_not_admits r (admitsCount_eq_false bound beyond)

/-- Settles O51: each of the eight operations is an array operation of its element count (`arrayOp_beyond_nMax`), in
codec (b) after the check of whole groups. -/
theorem countBeyondNMaxRefused : Obligations.CountBeyondNMaxRefused := by
  intro s m bound
  constructor
  · intro a beyond
    have refused := arrayOp_beyond_nMax bound beyond
    exact ⟨refused _, refused _, refused _, fun whole => (if_neg (not_not.2 whole)).trans (refused _)⟩
  · intro buf n beyond
    have refused := arrayOp_beyond_nMax bound beyond
    exact ⟨refused _, refused _, refused _, fun whole => (if_neg (not_not.2 whole)).trans (refused _)⟩

end Sys2Proof.Proofs.Exceptions
end

section
/-! PROOFS of family 70_reset_and_hazards: the state after `RESET`. -/

namespace Sys2Proof.Proofs.Reset

open Sys2Proof Sys2Proof.Machine

/-- R340: `RESET` is accepted in every state, `DONE` and `col_done = 1` included. -/
theorem exec_reset (s : State) : exec .reset s = .next (resetUnits s) := rfl

/-- Settles O56: `RESET` leaves `resetUnits s`, whose fields are those of `State.reset` but for the three it keeps
(the `resetUnits_…` lemmas), and `State.reset` is the table of R43 (the `reset_…` lemmas). -/
theorem resetGivesTheTable : Obligations.ResetGivesTheTable := by
  intro s
  refine ⟨resetUnits s, exec_reset s, ?_⟩
  simp

end Sys2Proof.Proofs.Reset
end
